-- ==== Sys2Proof/Word.lean ====
section
/-!
DEFINITION. The widths of the block's words (10_state.md R21 to R34, 30_encoding.md R70, R80).
-/

namespace Sys2Proof

/-- One byte of a data stream (10_state.md R40). -/
abbrev Byte := BitVec 8

/-- A command word, 36 bits (30_encoding.md R70). -/
abbrev CmdWord := BitVec 36

/-- An event word, 46 bits (30_encoding.md R80). -/
abbrev EventWord := BitVec 46

/-- A 7-bit bus device address (10_state.md R32, R33). -/
abbrev DevAddr := BitVec 7

/-- The `addr` operand, 16 bits (30_encoding.md R70). -/
abbrev Addr := BitVec 16

/-- The `len` operand, 17 bits (30_encoding.md R70). -/
abbrev Len := BitVec 17

end Sys2Proof
end

