-- ==== Sys2Proof/Config.lean ====
section
/-!
DEFINITION. What an implementation fixes: the chip descriptor's shape, the build's parameters with their defaults, and
the free values (values the spec leaves open, without a body).
-/

namespace Sys2Proof

/-- The chip descriptor: exactly four fields (00_scope.md R5, R6). The block consumes these numbers and no variant
identity. -/
structure Descriptor where
  /-- `cap`: total addressable bytes, 17 bits. -/
  capacity : BitVec 17
  /-- `ps`: the device's page size in bytes, 8 bits. -/
  pageSize : BitVec 8
  /-- `aw`: the number of address bytes the device expects, 2 bits. -/
  addressWidth : BitVec 2
  /-- `ob`: the number of address bits carried in the device address, 2 bits. -/
  overflowBits : BitVec 2
  deriving DecidableEq, Repr

/-- The parameter ZERO_LEN_WRITE (42_write_splitter.md R124, 92_eei_decisions.md D10: OPEN). -/
inductive ZeroLenWrite where
  /-- The spec's value `none`, its default: a passing zero-length WRITE emits no event. -/
  | noEvent
  /-- The spec's value `formula`: the page count formula, read with the mathematical floor. -/
  | formula
  deriving DecidableEq, Repr

/-- The named parameters of a build: the four literals of 00_scope.md R8 and ZERO_LEN_WRITE (00_scope.md R16, R17). The
widths of T_WC_MS and SPLIT_PAGE are those of the places they go to (log 16). -/
structure Params where
  /-- BASE_ADDR, 7 bits. -/
  baseAddr : DevAddr
  /-- T_WC_MS, the write-cycle delay in milliseconds, as wide as the event field that carries it (30_encoding.md R80). -/
  tWcMs : BitVec 17
  /-- SPLIT_LEN, a number that is only compared with a length. -/
  splitLen : Nat
  /-- SPLIT_PAGE, as wide as `eps` (10_state.md R23). -/
  splitPage : BitVec 8
  /-- ZERO_LEN_WRITE. -/
  zeroLenWrite : ZeroLenWrite
  deriving DecidableEq, Repr

namespace Config

/-- The default of each parameter (00_scope.md R8, 42_write_splitter.md R124). -/
def defaults : Params :=
  { baseAddr := 0x50#7, tWcMs := 5#17, splitLen := 30, splitPage := 16#8, zeroLenWrite := .noEvent }

/-- DESIGN CHOICE, log 5. FREE VALUE: a byte the spec leaves open. It has no body, so nothing can be proved of its
value; each use takes a fresh argument from the counter `State.draws`. -/
opaque freeByte : Nat → Byte

/-- DESIGN CHOICE, log 5. FREE VALUE: a bit the spec leaves open (`rsp_ok` of READ1, 30_encoding.md R82). -/
opaque freeBit : Nat → Bool

end Config

end Sys2Proof
end

