-- ==== Sys2Proof/Syntax.lean ====
section
/-!
DEFINITION. The commands: one constructor for each row of spec/opcode_table.json (30_encoding.md R71, R72).
A field that an operation ignores (R71) is no operand, so it does not appear here.
-/

namespace Sys2Proof

/-- The six operations (00_scope.md R2). -/
inductive Instr where
  /-- `INIT`, format N (40_lifecycle_init.md R90). -/
  | init
  /-- `WRITE addr, len`, format AL (42_write_splitter.md R120). -/
  | write (addr : Addr) (len : Len)
  /-- `READ addr, len`, format AL (43_read.md R132). -/
  | read (addr : Addr) (len : Len)
  /-- `READ1 addr`, format A (43_read.md R135). -/
  | read1 (addr : Addr)
  /-- `WPA`, format N (44_write_protect.md R140). -/
  | wpa
  /-- `WPC`, format N (44_write_protect.md R141). -/
  | wpc
  deriving DecidableEq, Repr

end Sys2Proof
end

