-- ==== Sys2Proof/Decode.lean ====
section
/-!
DEFINITION. The command decoder, total on every 36-bit word and rejecting reserved operation codes by name; after it
the encoder; then the packed descriptor word CHIPCFG (30_encoding.md R70 to R74, 10_state.md R30).
-/

namespace Sys2Proof

/-- Why a command word names no operation (30_encoding.md R74). -/
inductive DecodeError where
  /-- `op` is 6 or 7. -/
  | reservedOp (op : BitVec 3)
  deriving DecidableEq, Repr

/-- The operation code, bits 35:33 (30_encoding.md R70). -/
def opField (w : CmdWord) : BitVec 3 := w.extractLsb' 33 3

/-- The length operand, bits 32:16 (30_encoding.md R70). -/
def lenField (w : CmdWord) : Len := w.extractLsb' 16 17

/-- The address operand, bits 15:0 (30_encoding.md R70). -/
def addrField (w : CmdWord) : Addr := w.extractLsb' 0 16

/-- The operation codes of 30_encoding.md R72; a field that the operation's format does not read is ignored (R71). -/
def decode (w : CmdWord) : Except DecodeError Instr :=
  if opField w = 0#3 then .ok .init
  else if opField w = 1#3 then .ok (.write (addrField w) (lenField w))
  else if opField w = 2#3 then .ok (.read (addrField w) (lenField w))
  else if opField w = 3#3 then .ok (.read1 (addrField w))
  else if opField w = 4#3 then .ok .wpa
  else if opField w = 5#3 then .ok .wpc
  else .error (.reservedOp (opField w))

/-- `cmd_word = op << 33 | len << 16 | addr` (30_encoding.md R70). -/
def packCommand (op : BitVec 3) (len : Len) (addr : Addr) : CmdWord :=
  op.setWidth 36 <<< 33 ||| len.setWidth 36 <<< 16 ||| addr.setWidth 36

/-- The canonical word of an instruction: an ignored field holds 0 (30_encoding.md R71, R72). -/
def encode : Instr → CmdWord
  | .init => packCommand 0#3 0#17 0#16
  | .write addr len => packCommand 1#3 len addr
  | .read addr len => packCommand 2#3 len addr
  | .read1 addr => packCommand 3#3 0#17 addr
  | .wpa => packCommand 4#3 0#17 0#16
  | .wpc => packCommand 5#3 0#17 0#16

/-- The 36 wires of `cmd_word` as the opcode table numbers them; a table row laid out in whole bytes has four bits
above bit 35, which are no wires of the port (10_state.md R40). -/
def tableWord (nbits w : Nat) : CmdWord := BitVec.ofNat 36 (w % 2 ^ nbits)

/-- The instruction the decoder reads from a word numbered as spec/opcode_table.json numbers it. -/
def decodeTableWord (nbits w : Nat) : Option Instr :=
  match decode (tableWord nbits w) with
  | .ok i => some i
  | .error _ => none

/-- The four fields of a CHIPCFG word; bits 31:29 are reserved and ignored (10_state.md R30). -/
def unpackChip (w : BitVec 32) : Descriptor :=
  { capacity := w.extractLsb' 0 17
    pageSize := w.extractLsb' 17 8
    addressWidth := w.extractLsb' 25 2
    overflowBits := w.extractLsb' 27 2 }

/-- `CHIPCFG = capacity | page_size << 17 | address_width << 25 | overflow_bits << 27` (10_state.md R30). -/
def packChip (c : Descriptor) : BitVec 32 :=
  c.capacity.setWidth 32 ||| c.pageSize.setWidth 32 <<< 17 ||| c.addressWidth.setWidth 32 <<< 25
    ||| c.overflowBits.setWidth 32 <<< 27

end Sys2Proof
end

