-- ==== Sys2Proof/Machine/State.lean ====
section
/-!
DEFINITION. The machine's state as plain data: the registers of 10_state.md R20 to R34, the ports of R40 at the level
of commands, events and results, and the reasons a step can stop.
-/

namespace Sys2Proof.Machine

/-- The lifecycle flag (10_state.md R34). The rules test it for equality only. -/
inductive Mode where
  /-- `UNINIT` (0). -/
  | uninit
  /-- `ACTIVE` (1): no write-protect control. -/
  | active
  /-- `ACTIVE_WP` (2): the write-protect pin is available. -/
  | activeWp
  deriving DecidableEq, Repr

/-- The sequencer state (10_state.md R27). -/
inductive Seq where
  /-- `IDLE` (0): a command can be accepted. -/
  | idle
  /-- `W_PAGE` (1): the next action is to issue a page transaction. -/
  | wPage
  /-- `W_DLY` (2): the next action is the write-cycle delay of the page just issued. -/
  | wDly
  deriving DecidableEq, Repr

/-- An event: one call of a collaborator primitive (00_scope.md R11). -/
inductive Event where
  /-- `SEL(da)`. -/
  | sel (da : DevAddr)
  /-- `WR(da, form, reg, n, bytes)`. -/
  | wr (da : DevAddr) (form : BitVec 2) (reg : BitVec 16) (n : BitVec 17) (bytes : List Byte)
  /-- `RD(da, form, reg, n)`. -/
  | rd (da : DevAddr) (form : BitVec 2) (reg : BitVec 16) (n : BitVec 17)
  /-- `DLY(ms)`. -/
  | dly (ms : BitVec 17)
  /-- `PINOUT`. -/
  | pinOut
  /-- `PIN(level)`, true for high. -/
  | pin (level : Bool)
  deriving DecidableEq, Repr

/-- A response: the values of `rsp_ok` and `rsp_byte` with the pulse `rsp_valid` (30_encoding.md R82). -/
structure Response where
  /-- `rsp_ok`. -/
  ok : Bool
  /-- `rsp_byte`. -/
  byte : Byte
  deriving DecidableEq, Repr

/-- The reason label of a failed check (00_scope.md R13, 60_exceptions.md R150). It is no output of the block. -/
inductive FailReason where
  /-- `mode = UNINIT` (60_exceptions.md R151). -/
  | notInitialized
  /-- `addr + len > cap` (60_exceptions.md R152). -/
  | outOfRange
  deriving DecidableEq, Repr

/-- Where the machine is stuck. A failed operation is no fault: it is the result `ok = 0` (00_scope.md R17). -/
inductive Fault where
  /-- Raised by a step that emits an event while `ev_ready` stays low: the collaborator never returns and the block
  waits for ever (93_implementation_defined.md U13, 70_reset_and_hazards.md R181). Safe: nothing follows it. -/
  | collaboratorSilent
  /-- Raised by W-PAGE when the write data stream holds fewer bytes than the chunk: the block waits for the missing
  byte for ever (93_implementation_defined.md U14, 70_reset_and_hazards.md R183). Safe: nothing follows it. -/
  | writeDataDry
  deriving DecidableEq, Repr

/-- Why a step has no meaning. -/
inductive Refusal where
  /-- An instruction without a meaning. Raised by no arm of `exec` now. Safe. -/
  | notModelled (mnemonic : String)
  /-- Raised by every operation and sequencer step under an ill-formed descriptor, for which the block's behaviour is
  undefined (70_reset_and_hazards.md R176, 93_implementation_defined.md U6). Safe. -/
  | illFormedDescriptor
  /-- Raised by a WRITE that passes its checks with an effective page size of 0, which a build with SPLIT_PAGE = 0 gives:
  its offset and page count divide by that size, and `div` and `mod` are defined for a positive divisor only (00_scope.md
  R10, 42_write_splitter.md R113, log 19). Safe. -/
  | zeroPageSize
  deriving DecidableEq, Repr

/-- Where inside a step a reset falls (00_scope.md R19: the caller may apply it at any time). -/
structure ResetPoint where
  /-- How many of the step's events have been emitted. The last of them is outstanding: its collaborator has not returned
  (10_state.md R42). With none, the step's command has been taken and nothing emitted. -/
  emitted : Nat
  /-- How many bytes of the outstanding event, if it carries any, have crossed their stream (10_state.md R40). -/
  moved : Nat
  deriving DecidableEq, Repr

/-- Everything the block holds, what its inputs carry, and what it has put out. -/
structure State where
  /-- Input `rst`, synchronous and active high (10_state.md R40, R45). -/
  rst : Bool
  /-- Input `rst` as it rises inside a step (00_scope.md R19): `some p` resets the block, for one pulse, the first time a
  step reaches `p`; `none` while no such reset is coming (log 20). -/
  rstWithin : Option ResetPoint
  /-- Input `cfg_chip`, sampled while `rst` is high (10_state.md R30, R40). -/
  cfgChip : BitVec 32
  /-- Input `cfg_bias` (10_state.md R40). -/
  cfgBias : BitVec 3
  /-- Input `cfg_wp_present` (10_state.md R40). -/
  cfgWpPresent : Bool
  /-- The command words the caller presents, the next first (10_state.md R40, R41). -/
  cmdIn : List CmdWord
  /-- The write data stream, the next byte first (10_state.md R40). -/
  wd : List Byte
  /-- The scripted bytes the transport answers to RD events, the next first (10_state.md R40); beyond them an answered
  byte is a free value. -/
  tr : List Byte
  /-- Input `ev_ready`: the collaborators return from their primitives (10_state.md R40, R42). -/
  evReady : Bool
  /-- The build's parameters: BASE_ADDR, T_WC_MS, SPLIT_LEN, SPLIT_PAGE (00_scope.md R8) and ZERO_LEN_WRITE
  (42_write_splitter.md R124). No step changes them. -/
  params : Params
  /-- The descriptor registers `cap`, `ps`, `aw`, `ob` (10_state.md R29). -/
  cfg : Descriptor
  /-- `bias` (10_state.md R29). -/
  bias : BitVec 3
  /-- `wp_present` (10_state.md R29). -/
  wpPresent : Bool
  /-- `mode` (10_state.md R34). -/
  mode : Mode
  /-- `dar`, the device-address register (10_state.md R33). -/
  dar : DevAddr
  /-- `seq` (10_state.md R27). -/
  seq : Seq
  /-- `addr_l` (10_state.md R21). -/
  addrL : Addr
  /-- `len_l` (10_state.md R22). -/
  lenL : Len
  /-- `eps`, the effective page size (10_state.md R23). -/
  eps : BitVec 8
  /-- `cur_off` (10_state.md R24). -/
  curOff : BitVec 8
  /-- `bytes_sent` (10_state.md R25). -/
  bytesSent : BitVec 17
  /-- `pg`, the page transactions still to issue (10_state.md R26). -/
  pg : BitVec 17
  /-- The ordered event stream, oldest first (00_scope.md R11, 20_memory.md R58). -/
  events : List Event
  /-- The bytes delivered to the caller's buffers, oldest first (10_state.md R40, 43_read.md R133). -/
  rdat : List Byte
  /-- The responses delivered, oldest first (30_encoding.md R82). -/
  responses : List Response
  /-- Output `rsp_valid`: the last step completed an operation (10_state.md R40). -/
  rspValid : Bool
  /-- The model's own note (log 20), no register of the block: a reset fell while a DLY was outstanding, and no later DLY
  has returned. The event stream shows a DLY but not that it returned (10_state.md R40). -/
  delayCut : Bool
  /-- The model's own counter of free values used (log 5); no register of the block. -/
  draws : Nat
  deriving DecidableEq, Repr

/-- The machine right after reset (10_state.md R45). The inputs and the six working registers have no value in the
spec: DESIGN CHOICE, logs 1, 2, 3. The registers follow the inputs as R45 says. -/
def State.reset : State :=
  { rst := false
    rstWithin := none
    cfgChip := 0x02100100#32
    cfgBias := 0#3
    cfgWpPresent := false
    cmdIn := []
    wd := []
    tr := []
    evReady := true
    params := Config.defaults
    cfg := { capacity := 256#17, pageSize := 8#8, addressWidth := 1#2, overflowBits := 0#2 }
    bias := 0#3
    wpPresent := false
    mode := .uninit
    dar := 0x50#7
    seq := .idle
    addrL := 0#16
    lenL := 0#17
    eps := 0#8
    curOff := 0#8
    bytesSent := 0#17
    pg := 0#17
    events := []
    rdat := []
    responses := []
    rspValid := false
    delayCut := false
    draws := 0 }

end Sys2Proof.Machine
end

