-- ==== Sys2Proof/Machine/Encoder.lean ====
section
/-!
DEFINITION. The address encoder's pure functions (41_address_encoder.md R95 to R100). An EEPROM address `a` is a
natural number, so that no sum wraps (00_scope.md R10).
-/

namespace Sys2Proof.Machine

/-- `base = BASE_ADDR | zext_7(bias)` (10_state.md R32). -/
def State.base (s : State) : DevAddr := s.params.baseAddr ||| s.bias.setWidth 7

/-- `mask = 2^ob - 1` (41_address_encoder.md R96). -/
def overflowMask (ob : BitVec 2) : DevAddr := BitVec.ofNat 7 (2 ^ ob.toNat - 1)

/-- `ovf(a) = (a >> 8) & mask` (41_address_encoder.md R97). -/
def ovf (ob : BitVec 2) (a : Nat) : DevAddr := BitVec.ofNat 7 (a / 256) &&& overflowMask ob

/-- `synth(a) = (base & not_7(mask)) | ovf(a)` (41_address_encoder.md R98). -/
def synth (base : DevAddr) (ob : BitVec 2) (a : Nat) : DevAddr :=
  (base &&& ~~~overflowMask ob) ||| ovf ob a

/-- `regaddr(a)`: `a[7:0]` when `aw = 1`, `a[15:0]` when `aw = 2` (41_address_encoder.md R100). The form is `aw`
itself. -/
def regAddr (aw : BitVec 2) (a : Nat) : BitVec 16 :=
  if aw = 1#2 then BitVec.ofNat 16 (a % 256) else BitVec.ofNat 16 a

end Sys2Proof.Machine
end

