-- ==== Sys2Proof/Machine/Flags.lean ====
section
/-!
DEFINITION. The one status flag `ok` and the response that carries it (10_state.md R28, 30_encoding.md R82). The parts
of a response the spec leaves undefined are free values (log 5).
-/

namespace Sys2Proof.Machine

/-- Delivers one response and raises `rsp_valid` (30_encoding.md R82). -/
def respond (ok : Bool) (byte : Byte) (s : State) : State :=
  { s with responses := s.responses ++ [{ ok := ok, byte := byte }], rspValid := true, draws := s.draws + 1 }

/-- Completes an operation with `ok`; `rsp_byte` is undefined (30_encoding.md R82). -/
def complete (ok : Bool) (s : State) : State := respond ok (Config.freeByte s.draws) s

/-- Completes READ1 with its byte; `rsp_ok` is undefined (30_encoding.md R82). -/
def completeByte (byte : Byte) (s : State) : State := respond (Config.freeBit s.draws) byte s

end Sys2Proof.Machine
end

