-- ==== Sys2Proof/Machine/Operands.lean ====
section
/-!
DEFINITION. What the operations compute from their operands: the pre-flight checks and the splitter's arithmetic
(30_encoding.md R73, 42_write_splitter.md R111 to R116, 43_read.md R131).
-/

namespace Sys2Proof.Machine

/-- The pre-flight checks, `mode` first (42_write_splitter.md R111, 43_read.md R131, 60_exceptions.md R153). The sum is
exact. -/
def preflight (s : State) (addr : Addr) (len : Len) : Option FailReason :=
  if s.mode = .uninit then some .notInitialized
  else if s.cfg.capacity.toNat < addr.toNat + len.toNat then some .outOfRange
  else none

/-- The effective page size (42_write_splitter.md R112). -/
def effectivePageSize (p : Params) (c : Descriptor) (len : Len) : BitVec 8 :=
  if 1 < c.addressWidth.toNat ∧ p.splitLen < len.toNat then p.splitPage else c.pageSize

/-- `off = addr mod eps` (42_write_splitter.md R113). -/
def pageOffset (eps addr : Nat) : Nat := addr % eps

/-- `((len + off - 1) div eps) + 1` with the mathematical floor: 0 when `len + off = 0` (42_write_splitter.md R114,
R124). -/
def pagesByFormula (eps off len : Nat) : Nat :=
  if len + off = 0 then 0 else (len + off - 1) / eps + 1

/-- The number of page transactions (42_write_splitter.md R114); for length 0 as ZERO_LEN_WRITE says (R124). -/
def pageCount (z : ZeroLenWrite) (eps off len : Nat) : Nat :=
  if len = 0 ∧ z = .noEvent then 0 else pagesByFormula eps off len

/-- `chunk = min(eps - cur_off, len_l - bytes_sent)` (42_write_splitter.md R116). -/
def nextChunk (s : State) : Nat :=
  min (s.eps.toNat - s.curOff.toNat) (s.lenL.toNat - s.bytesSent.toNat)

/-- The EEPROM address of the next page transaction's first byte, `addr_l + bytes_sent` (42_write_splitter.md R115). -/
def nextAddress (s : State) : Nat := s.addrL.toNat + s.bytesSent.toNat

end Sys2Proof.Machine
end

