-- ==== Sys2Proof/WellFormed.lean ====
section
/-!
DEFINITION. Which descriptors the rules are defined for (70_reset_and_hazards.md R176), and which describe a real
device (R177). An `Instr` needs no check of its own: its operands have the widths of the command word's fields
(30_encoding.md R70), and the block requires no alignment (20_memory.md R53).
-/

namespace Sys2Proof

/-- Descriptor well-formedness: `ps >= 1`, `aw` in {1, 2}, `cap <= 65536`; `ob` in 0 to 3 holds by its width
(70_reset_and_hazards.md R176). -/
def Descriptor.wellFormed (c : Descriptor) : Bool :=
  decide (1 ≤ c.pageSize.toNat)
    && (decide (c.addressWidth = 1#2) || decide (c.addressWidth = 2#2))
    && decide (c.capacity.toNat ≤ 65536)

/-- The encoding is faithful (41_address_encoder.md R103, 70_reset_and_hazards.md R177 (a)). With `aw = 2` and
`ob > 0` R103 names no bound; the register address carries all 16 bits (R104), so none is needed. -/
def Descriptor.faithful (c : Descriptor) : Bool :=
  if c.overflowBits = 0#2 then decide (c.capacity.toNat ≤ 2 ^ (8 * c.addressWidth.toNat))
  else c.addressWidth != 1#2 || decide (c.capacity.toNat ≤ 2 ^ (8 + c.overflowBits.toNat))

/-- Descriptor soundness (70_reset_and_hazards.md R177): (a) the encoding is faithful; (b) SPLIT_PAGE
divides `ps` when `aw = 2`; (c) `ps` divides 256 when `ob > 0`. The block checks none of it. -/
def Descriptor.sound (c : Descriptor) (p : Params) : Bool :=
  c.faithful
    && (c.addressWidth != 2#2 || decide (c.pageSize.toNat % p.splitPage.toNat = 0))
    && (c.overflowBits == 0#2 || decide (256 % c.pageSize.toNat = 0))

end Sys2Proof
end

