-- ==== Sys2Proof/Machine/Ops.lean ====
section
/-!
DEFINITION. The shared operations over State: reset, emitting an event, failing, the device-address update, reading
through the transport, and the guards under which a step stops.
-/

namespace Sys2Proof.Machine

/-- Reset: every register takes its reset value, no event is emitted (10_state.md R45, R46). The six working registers
have none in the spec: DESIGN CHOICE 0, log 1. An operation in progress is abandoned (70_reset_and_hazards.md R172). -/
def applyReset (s : State) : State :=
  { s with
    cfg := unpackChip s.cfgChip
    bias := s.cfgBias
    wpPresent := s.cfgWpPresent
    mode := .uninit
    dar := s.params.baseAddr ||| s.cfgBias.setWidth 7
    seq := .idle
    addrL := 0#16
    lenL := 0#17
    eps := 0#8
    curOff := 0#8
    bytesSent := 0#17
    pg := 0#17
    rspValid := false }

/-- `emit E`: appends the event to the ordered event stream (00_scope.md R11). -/
def emit (e : Event) (s : State) : State := { s with events := s.events ++ [e] }

/-- `mode <- m` (10_state.md R34). -/
def setMode (m : Mode) (s : State) : State := { s with mode := m }

/-- `seq <- q` (10_state.md R27). -/
def setSeq (q : Seq) (s : State) : State := { s with seq := q }

/-- `n` bytes of the write data stream are consumed (70_reset_and_hazards.md R183). -/
def takeData (n : Nat) (s : State) : State := { s with wd := s.wd.drop n }

/-- `raise Fail(reason)`: the operation ends at once with `ok = 0`, no event, no register written (00_scope.md R13,
60_exceptions.md R150, R154). The reason is a label only. -/
def raiseFail (_reason : FailReason) (s : State) : State := complete false s

/-- `UpdateDA(a)` (41_address_encoder.md R99). -/
def updateDA (a : Nat) (s : State) : State :=
  if s.cfg.overflowBits = 0#2 then s
  else emit (.sel (synth s.base s.cfg.overflowBits a)) { s with dar := synth s.base s.cfg.overflowBits a }

/-- One register read from `a`: `UpdateDA(a)`, then the RD event (43_read.md R132). -/
def issueRead (a : Nat) (n : BitVec 17) (s : State) : State :=
  emit (.rd (updateDA a s).dar s.cfg.addressWidth (regAddr s.cfg.addressWidth a) n) (updateDA a s)

/-- The `n` bytes the transport answers: the scripted ones, and free values beyond them (00_scope.md R17, log 5). -/
def transportAnswer (n : Nat) (s : State) : List Byte :=
  s.tr.take n ++ (List.range (n - s.tr.length)).map fun i => Config.freeByte (s.draws + i)

/-- The answered bytes are used up. -/
def takeAnswer (n : Nat) (s : State) : State :=
  { s with tr := s.tr.drop n, draws := s.draws + (n - s.tr.length) }

/-- The bytes go to the caller's buffer in order (43_read.md R133). -/
def deliver (bytes : List Byte) (s : State) : State := { s with rdat := s.rdat ++ bytes }

/-- The rules are defined for well-formed descriptors only (70_reset_and_hazards.md R176, log 10). -/
def whenWellFormed (s t : State) : Host.Outcome State Fault Refusal :=
  if s.cfg.wellFormed then .next t else .refused .illFormedDescriptor

/-- A step that emits events ends when its collaborators have returned; while `ev_ready` is low it never does
(10_state.md R42, 93_implementation_defined.md U13, log 6). -/
def whenReturned (s : State) (r : Host.Outcome State Fault Refusal) : Host.Outcome State Fault Refusal :=
  match r with
  | .next t => if t.events.length = s.events.length ∨ s.evReady = true then .next t else .fault .collaboratorSilent
  | .fault f => .fault f
  | .refused q => .refused q

/-- A command with a reserved `op` is accepted, emits no event, changes no state and completes with `ok = 0`
(30_encoding.md R74, log 7). -/
def reservedCommand (s : State) : Host.Outcome State Fault Refusal := whenWellFormed s (complete false s)

end Sys2Proof.Machine
end

