-- ==== Sys2Proof/Machine/Abandon.lean ====
section
/-!
DEFINITION. A reset that falls inside a step: what the step had done when the reset cut it (00_scope.md R19,
10_state.md R45, R46, 60_exceptions.md R158, 70_reset_and_hazards.md R172). What becomes of an outstanding event is the
model's choice (log 20).
-/

namespace Sys2Proof.Machine

/-- The events a step from `s` to `t` emits. -/
def stepEvents (s t : State) : List Event := t.events.drop s.events.length

/-- The events of the step from `s` to `t` that have been emitted at `p`. -/
def emittedAt (p : ResetPoint) (s t : State) : List Event := (stepEvents s t).take p.emitted

/-- An event of which only `moved` data bytes have gone out on `ev_wbyte` (30_encoding.md R80). -/
def cutEvent (moved : Nat) : Event → Event
  | .sel da => .sel da
  | .wr da form reg n bytes => .wr da form reg n (bytes.take moved)
  | .rd da form reg n => .rd da form reg n
  | .dly ms => .dly ms
  | .pinOut => .pinOut
  | .pin level => .pin level

/-- Emitted events, the last of which is outstanding. -/
def cutLast (moved : Nat) : List Event → List Event
  | [] => []
  | [e] => [cutEvent moved e]
  | e :: e' :: es => e :: cutLast moved (e' :: es)

/-- What has happened around the outstanding event: `moved` bytes of a WR have left the write data stream, `moved` bytes
of an RD have been answered and, if `answer` is not empty, delivered, and a DLY has not returned. -/
def moveOutstanding (moved : Nat) (answer : List Byte) (e : Option Event) (s : State) : State :=
  match e with
  | some (.wr _ _ _ n _) => takeData (min moved n.toNat) s
  | some (.rd _ _ _ n) => deliver (answer.take moved) (takeAnswer (min moved n.toNat) s)
  | some (.dly _) => { s with delayCut := true }
  | some (.sel _) => s
  | some .pinOut => s
  | some (.pin _) => s
  | none => s

/-- The step from `s`, which would have ended in `t`, is cut by a reset at `p`. The events emitted stay emitted and no
other follows (10_state.md R46), the accepted command is gone, no response is given, and every register takes its reset
value (R45). DESIGN CHOICE, log 20. -/
def abandon (p : ResetPoint) (s t : State) : State :=
  applyReset
    (moveOutstanding p.moved (t.rdat.drop s.rdat.length) (emittedAt p s t).getLast?
      { s with
        cmdIn := t.cmdIn
        events := s.events ++ cutLast p.moved (emittedAt p s t)
        rstWithin := none })

/-- The bytes of an outstanding WR that have moved are there to move (70_reset_and_hazards.md R183). -/
def bytesThere (moved : Nat) (e : Option Event) (s : State) : Bool :=
  match e with
  | some (.wr _ _ _ n _) => decide (min moved n.toNat ≤ s.wd.length)
  | _ => true

/-- Whether the step from `s`, which would end in `t`, reaches `p`: it emits that many events, while `ev_ready` is low no
event after the first (10_state.md R42), and the bytes moved are there. -/
def reaches (p : ResetPoint) (s t : State) : Bool :=
  decide (p.emitted ≤ (stepEvents s t).length) && (s.evReady || decide (p.emitted ≤ 1))
    && bytesThere p.moved (emittedAt p s t).getLast? s

end Sys2Proof.Machine
end

