-- ==== Sys2Proof/Machine/Lifecycle.lean ====
section
/-!
DEFINITION. The meaning of INIT (40_lifecycle_init.md R90 to R93).
-/

namespace Sys2Proof.Machine

/-- INIT's pseudocode (40_lifecycle_init.md R90), the same in every mode (R91). -/
def startUp (s : State) : State :=
  if s.wpPresent then complete true (setMode .activeWp (emit (.pin false) (emit .pinOut s)))
  else complete true (setMode .active s)

/-- INIT. -/
def execInit (s : State) : Host.Outcome State Fault Refusal := whenWellFormed s (startUp s)

end Sys2Proof.Machine
end

