-- ==== Sys2Proof/Machine/Read.lean ====
section
/-!
DEFINITION. The meanings of READ and READ1 (43_read.md R131 to R136). Neither emits a delay (R136), and a read is never
split (R132, R134).
-/

namespace Sys2Proof.Machine

/-- READ after the checks (43_read.md R132, R133). -/
def performRead (addr : Addr) (len : Len) (s : State) : State :=
  complete true
    (deliver (transportAnswer len.toNat s) (takeAnswer len.toNat (issueRead addr.toNat len s)))

/-- READ (43_read.md R132). -/
def execRead (addr : Addr) (len : Len) (s : State) : Host.Outcome State Fault Refusal :=
  whenWellFormed s
    (match preflight s addr len with
     | some reason => raiseFail reason s
     | none => performRead addr len s)

/-- READ1 after the checks (43_read.md R135). -/
def performRead1 (addr : Addr) (s : State) : State :=
  completeByte ((transportAnswer 1 s).headD (Config.freeByte s.draws))
    (takeAnswer 1 (issueRead addr.toNat 1#17 s))

/-- A READ1 that fails its check: no event, no register written, any byte (43_read.md R135, log 5). -/
def failRead1 (s : State) : State := completeByte (Config.freeByte s.draws) s

/-- READ1 (43_read.md R135). -/
def execRead1 (addr : Addr) (s : State) : Host.Outcome State Fault Refusal :=
  whenWellFormed s
    (match preflight s addr 1#17 with
     | some _ => failRead1 s
     | none => performRead1 addr s)

end Sys2Proof.Machine
end

