-- ==== Sys2Proof/Machine/Splitter.lean ====
section
/-!
DEFINITION. WRITE: its acceptance step, which is the meaning of the command, and the two sequencer steps that carry the
operation on (42_write_splitter.md R110 to R124).
-/

namespace Sys2Proof.Machine

/-- Latching at acceptance (42_write_splitter.md R110). -/
def latchWrite (addr : Addr) (len : Len) (s : State) : State :=
  let eps := effectivePageSize s.params s.cfg len
  let off := pageOffset eps.toNat addr.toNat
  { s with
    addrL := addr
    lenL := len
    eps := eps
    curOff := BitVec.ofNat 8 off
    bytesSent := 0#17
    pg := BitVec.ofNat 17 (pageCount s.params.zeroLenWrite eps.toNat off len.toNat) }

/-- W-ACCEPT after the checks: with no page to issue the operation completes, else the page loop begins
(42_write_splitter.md R121). -/
def acceptWrite (addr : Addr) (len : Len) (s : State) : State :=
  if (latchWrite addr len s).pg = 0#17 then complete true (latchWrite addr len s)
  else setSeq .wPage (latchWrite addr len s)

/-- The page arithmetic divides by the effective page size, which must be at least 1 (42_write_splitter.md R113, log 19).
A well-formed descriptor gives no other, so only a build with SPLIT_PAGE = 0 is stopped here. -/
def whenPageSized (len : Len) (s t : State) : Host.Outcome State Fault Refusal :=
  if s.cfg.wellFormed = true ∧ effectivePageSize s.params s.cfg len = 0#8 then .refused .zeroPageSize
  else whenWellFormed s t

/-- WRITE: step W-ACCEPT (42_write_splitter.md R121). The steps W-PAGE and W-DLY complete the operation (R123). -/
def execWrite (addr : Addr) (len : Len) (s : State) : Host.Outcome State Fault Refusal :=
  match preflight s addr len with
  | some reason => whenWellFormed s (raiseFail reason s)
  | none => whenPageSized len s (acceptWrite addr len s)

/-- The register write of one page transaction (42_write_splitter.md R115, R117): `UpdateDA`, then the WR event with the
next bytes of the write data stream, which are consumed (70_reset_and_hazards.md R183). -/
def issueWrite (a chunk : Nat) (s : State) : State :=
  takeData chunk
    (emit (.wr (updateDA a s).dar s.cfg.addressWidth (regAddr s.cfg.addressWidth a) (BitVec.ofNat 17 chunk)
      (s.wd.take chunk)) (updateDA a s))

/-- The register writes of R118 that belong to W-PAGE (42_write_splitter.md R118, R122). -/
def advancePage (chunk : Nat) (s : State) : State :=
  { s with bytesSent := BitVec.ofNat 17 (s.bytesSent.toNat + chunk), curOff := 0#8, seq := .wDly }

/-- Step W-PAGE (42_write_splitter.md R122), its data supplied. -/
def pageStep (s : State) : Host.Outcome State Fault Refusal :=
  whenWellFormed s (advancePage (nextChunk s) (issueWrite (nextAddress s) (nextChunk s) s))

/-- A W-PAGE step with too few bytes on the write data stream never ends (70_reset_and_hazards.md R183, log 6). -/
def whenSupplied (s : State) (r : Host.Outcome State Fault Refusal) : Host.Outcome State Fault Refusal :=
  if s.cfg.wellFormed = true ∧ s.seq = .wPage ∧ s.wd.length < nextChunk s then .fault .writeDataDry else r

/-- `pg <- pg - 1` (42_write_splitter.md R118). -/
def countPage (s : State) : State := { s with pg := BitVec.ofNat 17 (s.pg.toNat - 1) }

/-- The delay has returned (10_state.md R42, log 20). -/
def noteReturned (s : State) : State := { s with delayCut := false }

/-- The delay of step W-DLY and its count (42_write_splitter.md R118, R123). -/
def delayPage (s : State) : State := countPage (noteReturned (emit (.dly s.params.tWcMs) s))

/-- Step W-DLY (42_write_splitter.md R123). -/
def delayStep (s : State) : Host.Outcome State Fault Refusal :=
  whenWellFormed s
    (if (delayPage s).pg = 0#17 then complete true (setSeq .idle (delayPage s)) else setSeq .wPage (delayPage s))

end Sys2Proof.Machine
end

