-- ==== Sys2Proof/Machine/WriteProtect.lean ====
section
/-!
DEFINITION. The meanings of WPA and WPC (44_write_protect.md R140 to R143).
-/

namespace Sys2Proof.Machine

/-- Drives the pin in mode ACTIVE_WP and does nothing else in the other modes (44_write_protect.md R140, R141, R142). -/
def drivePin (level : Bool) (s : State) : State :=
  complete true (if s.mode = .activeWp then emit (.pin level) s else s)

/-- WPA drives the pin high (44_write_protect.md R140). -/
def execWpa (s : State) : Host.Outcome State Fault Refusal := whenWellFormed s (drivePin true s)

/-- WPC drives the pin low (44_write_protect.md R141). -/
def execWpc (s : State) : Host.Outcome State Fault Refusal := whenWellFormed s (drivePin false s)

end Sys2Proof.Machine
end

