-- ==== Sys2Proof/Machine/Dispatch.lean ====
section
/-! DEFINITION. One arm for each constructor of Instr, each one call of its meaning. -/

namespace Sys2Proof.Machine

def exec (i : Instr) (s : State) : Host.Outcome State Fault Refusal :=
  match i with
  | .init => Sys2Proof.Machine.execInit s
  | .write addr len => Sys2Proof.Machine.execWrite addr len s
  | .read addr len => Sys2Proof.Machine.execRead addr len s
  | .read1 addr => Sys2Proof.Machine.execRead1 addr s
  | .wpa => Sys2Proof.Machine.execWpa s
  | .wpc => Sys2Proof.Machine.execWpc s

end Sys2Proof.Machine
end

