-- ==== Sys2Proof/Machine/Sequencer.lean ====
section
/-!
DEFINITION. The sequencer: what one step does in each state of `seq` (10_state.md R27, R41, R45,
42_write_splitter.md R121 to R123).
-/

namespace Sys2Proof.Machine

/-- `rsp_valid` is a pulse: it falls as a step begins (10_state.md R40). -/
def beginStep (s : State) : State := { s with rspValid := false }

/-- The accepted command leaves the caller's list (10_state.md R41). -/
def popCommand (rest : List CmdWord) (s : State) : State := { s with cmdIn := rest }

/-- Accepting the command `w` (10_state.md R41): it leaves the caller's list, and the instruction it encodes runs. -/
def acceptCommand (w : CmdWord) (rest : List CmdWord) (s : State) : Host.Outcome State Fault Refusal :=
  match decode w with
  | .ok i => exec i (popCommand rest s)
  | .error _ => reservedCommand (popCommand rest s)

/-- What the block does next, its collaborators returning and its data supplied. In IDLE with no command presented it waits (10_state.md R45); outside IDLE no command is
accepted (R41). -/
def advance (s : State) : Host.Outcome State Fault Refusal :=
  match s.seq with
  | .idle =>
    match s.cmdIn with
    | [] => whenWellFormed s s
    | w :: rest => acceptCommand w rest s
  | .wPage => pageStep s
  | .wDly => delayStep s

/-- The state a reset inside the coming step leaves, if one falls there (00_scope.md R19). -/
def resetWithin (s : State) : Option State :=
  match s.rstWithin, advance (beginStep s) with
  | some p, .next t => if reaches p s t then some (abandon p s t) else none
  | _, _ => none

/-- One step: reset while `rst` is high (10_state.md R45), else the sequencer's next action, which a reset may cut (00_scope.md
R19) and which otherwise ends when its data has been supplied and its collaborators have returned. DESIGN CHOICE, log 18: a
command presented while `rst` is high is not accepted and waits across the reset, and neither byte stream moves; R41 does
not tie `cmd_ready` to `rst` and R45 says nothing of the streams. -/
def runSequencer (s : State) : Host.Outcome State Fault Refusal :=
  if s.rst then .next (applyReset s)
  else
    match resetWithin s with
    | some t => .next t
    | none => whenReturned s (whenSupplied s (advance (beginStep s)))

/-- Presents the command `w` to an idle block out of reset, with no reset coming, ahead of the caller's other commands (log 3). -/
def presentCommand (w : CmdWord) (s : State) : State :=
  { s with rst := false, rstWithin := none, seq := .idle, cmdIn := w :: s.cmdIn }

end Sys2Proof.Machine
end

