-- ==== Sys2Proof/Machine/Environment.lean ====
section
/-!
DEFINITION. The state outside the block that its events change (10_state.md R36), read off the event history as
00_scope.md R16 says. Before the first event that sets it, each is unknown (93_implementation_defined.md U16, U17).
-/

namespace Sys2Proof.Machine

/-- The transport's selected device address: the last `SEL` (10_state.md R36 (a)). -/
def selectedAddress (h : List Event) : Option DevAddr :=
  h.foldl (fun sel e => match e with | .sel da => some da | _ => sel) none

/-- The level the block drove on the write-protect pin last (10_state.md R36 (b)). -/
def pinLevel (h : List Event) : Option Bool :=
  h.foldl (fun lvl e => match e with | .pin l => some l | _ => lvl) none

/-- Whether the block has configured the pin as an output (10_state.md R36 (b)). -/
def pinIsOutput (h : List Event) : Bool := h.contains .pinOut

/-- Whether a device write cycle is open after an event: a WR opens one, a delay of T_WC_MS waits it out (10_state.md
R36 (c), 20_memory.md R59). -/
def cycleAfter (tWcMs : BitVec 17) (busy : Bool) (e : Event) : Bool :=
  match e with
  | .wr _ _ _ _ _ => true
  | .dly ms => if ms = tWcMs then false else busy
  | _ => busy

/-- Whether a WR has started a device write cycle that no later `DLY(T_WC_MS)` has waited out (10_state.md R36 (c),
20_memory.md R59). DEDUCED, log 15: read off this block's history alone, as if each delay in it had returned. -/
def writeCycleOpen (tWcMs : BitVec 17) (h : List Event) : Bool := h.foldl (cycleAfter tWcMs) false

/-- Whether a device write cycle may be open: the history leaves one open, or a reset fell before a delay had returned
(10_state.md R36 (c), 70_reset_and_hazards.md R172, logs 15, 20). -/
def State.cycleOpen (s : State) : Bool := s.delayCut || writeCycleOpen s.params.tWcMs s.events

/-- Whether an event is a transaction with the device. -/
def accessesDevice : Event → Bool
  | .wr _ _ _ _ _ => true
  | .rd _ _ _ _ => true
  | _ => false

/-- No transaction of the list is issued while a write cycle is open, if one is open before it exactly when `busy`
(20_memory.md R59, R60). -/
def paced (tWcMs : BitVec 17) : Bool → List Event → Bool
  | _, [] => true
  | busy, e :: es => !(accessesDevice e && busy) && paced tWcMs (cycleAfter tWcMs busy e) es

end Sys2Proof.Machine
end

