-- ==== Sys2Proof/Machine/EventWord.lean ====
section
/-!
DEFINITION. The 46-bit event word and the codes of `mode` and `seq` (30_encoding.md R80, R81, 10_state.md R27, R34).
-/

namespace Sys2Proof.Machine

/-- The event kind (30_encoding.md R81). -/
def eventKind : Event → BitVec 3
  | .sel _ => 0#3
  | .wr _ _ _ _ _ => 1#3
  | .rd _ _ _ _ => 2#3
  | .dly _ => 3#3
  | .pinOut => 4#3
  | .pin _ => 5#3

/-- `kind << 43 | da << 36 | form << 34 | reg << 18 | n << 1 | level` (30_encoding.md R80). -/
def packEvent (kind : BitVec 3) (da : DevAddr) (form : BitVec 2) (reg : BitVec 16) (n : BitVec 17) (level : BitVec 1) :
    EventWord :=
  kind.setWidth 46 <<< 43 ||| da.setWidth 46 <<< 36 ||| form.setWidth 46 <<< 34 ||| reg.setWidth 46 <<< 18
    ||| n.setWidth 46 <<< 1 ||| level.setWidth 46

/-- The word on `ev_word`; a field the kind does not use is 0 (30_encoding.md R80). The data bytes of a WR follow on
`ev_wbyte` and are not in the word. -/
def eventWord (e : Event) : EventWord :=
  match e with
  | .sel da => packEvent (eventKind e) da 0#2 0#16 0#17 0#1
  | .wr da form reg n _ => packEvent (eventKind e) da form reg n 0#1
  | .rd da form reg n => packEvent (eventKind e) da form reg n 0#1
  | .dly ms => packEvent (eventKind e) 0#7 0#2 0#16 ms 0#1
  | .pinOut => packEvent (eventKind e) 0#7 0#2 0#16 0#17 0#1
  | .pin level => packEvent (eventKind e) 0#7 0#2 0#16 0#17 (BitVec.ofBool level)

/-- The code of a mode (10_state.md R34). -/
def modeCode : Mode → BitVec 2
  | .uninit => 0#2
  | .active => 1#2
  | .activeWp => 2#2

/-- The code of a sequencer state (10_state.md R27). -/
def seqCode : Seq → BitVec 2
  | .idle => 0#2
  | .wPage => 1#2
  | .wDly => 2#2

end Sys2Proof.Machine
end

