-- ==== Sys2Proof/Machine/Memory.lean ====
section
/-!
DEFINITION. The byte array of the reference device as plain data: (address, byte) pairs, addresses strictly rising, no
pair equal to what an unlisted address reads as (20_memory.md R62). The block itself owns no memory (10_state.md R35).
-/

namespace Sys2Proof.Machine

/-- Memory contents. -/
abbrev Memory := List Host.Cell

/-- What an address that is not listed reads as: the start contents of 95_test_vectors.md part 3. DESIGN CHOICE, log 8. -/
def erasedByte : Byte := 0xFF#8

/-- The byte at an address. -/
def readByte : Memory → Nat → Byte
  | [], _ => erasedByte
  | (b, v) :: m, a => if b = a then v else readByte m a

/-- One byte written, the canonical form kept. -/
def writeByte : Memory → Nat → Byte → Memory
  | [], a, v => if v = erasedByte then [] else [(a, v)]
  | (b, w) :: m, a, v =>
    if a < b then (if v = erasedByte then (b, w) :: m else (a, v) :: (b, w) :: m)
    else if a = b then (if v = erasedByte then m else (a, v) :: m)
    else (b, w) :: writeByte m a v

/-- The canonical form: addresses strictly rising and above `lo`, no pair that an unlisted address would read as. -/
def canonicalFrom : Nat → Memory → Bool
  | _, [] => true
  | lo, (b, v) :: m => decide (lo ≤ b) && v != erasedByte && canonicalFrom (b + 1) m

/-- Memory is in the canonical form. -/
def Memory.wf (m : Memory) : Bool := canonicalFrom 0 m

/-- `MemWrite(L, n, bytes)`: byte `i` goes to `L + i` (20_memory.md R62). -/
def memWrite : Memory → Nat → List Byte → Memory
  | m, _, [] => m
  | m, a, v :: vs => memWrite (writeByte m a v) (a + 1) vs

end Sys2Proof.Machine
end

