-- ==== Sys2Proof/Machine/RefDevice.lean ====
section
/-!
DEFINITION. The reference transport and device of 20_memory.md R62, the spec's own, for test vectors and for claims
that take a correct device as their premise. It is no part of the block, and no rule of the block depends on it.
-/

namespace Sys2Proof.Machine

/-- The reference environment's state: `EE` and `tsel` (20_memory.md R62). -/
structure RefDevice where
  /-- `EE`, the device's byte array. -/
  ee : Memory
  /-- `tsel`, the transport's selected address. -/
  tsel : DevAddr
  deriving DecidableEq, Repr

/-- The linear address of a transaction, `lin(da, form, reg)` (20_memory.md R62). -/
def lin (ob : BitVec 2) (da : DevAddr) (form : BitVec 2) (reg : BitVec 16) : Nat :=
  if form = 1#2 then (da &&& overflowMask ob).toNat * 256 + reg.toNat % 256 else reg.toNat

/-- The device answers only device addresses that agree with `base` outside the overflow field (20_memory.md R62). -/
def answers (base : DevAddr) (ob : BitVec 2) (da : DevAddr) : Bool :=
  (da &&& ~~~overflowMask ob) == (base &&& ~~~overflowMask ob)

/-- Where MemWrite is defined: inside the device and inside one device page (20_memory.md R62). -/
def writeDefined (c : Descriptor) (l n : Nat) : Bool :=
  decide (l + n ≤ c.capacity.toNat)
    && (n == 0 || decide ((l + n - 1) / c.pageSize.toNat = l / c.pageSize.toNat))

/-- The effect of one event; `none` where the reference device gives no meaning, a WR cut short by a reset among them
(20_memory.md R62, log 8). -/
def refApply (c : Descriptor) (base : DevAddr) (d : RefDevice) (e : Event) : Option RefDevice :=
  match e with
  | .sel da => some { d with tsel := da }
  | .wr da form reg n bytes =>
    if answers base c.overflowBits da then
      if bytes.length = n.toNat ∧ writeDefined c (lin c.overflowBits da form reg) bytes.length = true then
        some { d with ee := memWrite d.ee (lin c.overflowBits da form reg) bytes }
      else none
    else some d
  | .rd _ _ _ _ => some d
  | .dly _ => some d
  | .pinOut => some d
  | .pin _ => some d

/-- The effect of a list of events in order. -/
def refRun (c : Descriptor) (base : DevAddr) : RefDevice → List Event → Option RefDevice
  | d, [] => some d
  | d, e :: es =>
    match refApply c base d e with
    | some d' => refRun c base d' es
    | none => none

/-- One answered byte, at `L + i` of a read that starts at `L`: `none` stands for any value. With overflow bits and the
one-byte form only the bytes of the first 256-byte region are defined (20_memory.md R62, 43_read.md R134). -/
def refAnswerByte (c : Descriptor) (m : Memory) (form : BitVec 2) (l i : Nat) : Option Byte :=
  if c.capacity.toNat ≤ l + i then none
  else if c.overflowBits ≠ 0#2 ∧ form = 1#2 ∧ (l + i) / 256 ≠ l / 256 then none
  else some (readByte m (l + i))

/-- The answer to an event: `MemRead(L, n)` for an RD the device answers (20_memory.md R62). -/
def refAnswer (c : Descriptor) (base : DevAddr) (d : RefDevice) (e : Event) : List (Option Byte) :=
  match e with
  | .rd da form reg n =>
    (List.range n.toNat).map fun i =>
      if answers base c.overflowBits da then refAnswerByte c d.ee form (lin c.overflowBits da form reg) i else none
  | _ => []

end Sys2Proof.Machine
end

