-- ==== Sys2Proof/Safety.lean ====
section
/-!
DEFINITION. The terms claims are stated in: what an operation leaves unchanged, what it answers, the invariant of the
block, and the event sequence of a whole WRITE.
-/

namespace Sys2Proof.Machine

/-- The inputs that are pins, the build's parameters and the configuration registers are the same. -/
def SameSetting (s t : State) : Prop :=
  t.rst = s.rst ∧ t.rstWithin = s.rstWithin ∧ t.cfgChip = s.cfgChip ∧ t.cfgBias = s.cfgBias ∧ t.cfgWpPresent = s.cfgWpPresent
    ∧ t.evReady = s.evReady ∧ t.params = s.params
    ∧ t.cfg = s.cfg ∧ t.bias = s.bias ∧ t.wpPresent = s.wpPresent

/-- The six working registers are the same (10_state.md R20). -/
def SameSplitter (s t : State) : Prop :=
  t.addrL = s.addrL ∧ t.lenL = s.lenL ∧ t.eps = s.eps ∧ t.curOff = s.curOff ∧ t.bytesSent = s.bytesSent ∧ t.pg = s.pg

/-- Every register of the block is the same. -/
def SameRegisters (s t : State) : Prop :=
  SameSetting s t ∧ SameSplitter s t ∧ t.mode = s.mode ∧ t.dar = s.dar ∧ t.seq = s.seq

/-- Nothing was read or delivered, and no write data was taken. -/
def SameData (s t : State) : Prop := t.wd = s.wd ∧ t.tr = s.tr ∧ t.rdat = s.rdat

/-- One response was delivered, with `rsp_ok = ok`; `rsp_byte` is not said (30_encoding.md R82). -/
def Responded (ok : Bool) (s t : State) : Prop :=
  t.rspValid = true ∧ ∃ b : Byte, t.responses = s.responses ++ [{ ok := ok, byte := b }]

/-- No response was delivered. -/
def Silent (s t : State) : Prop := t.rspValid = false ∧ t.responses = s.responses

/-- The checks pass (42_write_splitter.md R111, 43_read.md R131). -/
def Passes (s : State) (addr : Addr) (len : Len) : Prop :=
  s.mode ≠ .uninit ∧ addr.toNat + len.toNat ≤ s.cfg.capacity.toNat

/-- The block is out of reset and none is coming, its descriptor is well-formed, its collaborators return (00_scope.md R19), and SPLIT_PAGE
is at least 1 (42_write_splitter.md R113). -/
def Ready (s : State) : Prop :=
  s.rst = false ∧ s.rstWithin = none ∧ s.cfg.wellFormed = true ∧ s.evReady = true ∧ s.params.splitPage ≠ 0#8

/-- The events of `UpdateDA(a)` (41_address_encoder.md R99). -/
def selectEvents (c : Descriptor) (base : DevAddr) (a : Nat) : List Event :=
  if c.overflowBits = 0#2 then [] else [.sel (synth base c.overflowBits a)]

/-- `dar` after `UpdateDA(a)` (41_address_encoder.md R99). -/
def updatedDar (c : Descriptor) (base dar : DevAddr) (a : Nat) : DevAddr :=
  if c.overflowBits = 0#2 then dar else synth base c.overflowBits a

/-- The events of a WRITE's page loop (42_write_splitter.md R120): `pages` page transactions, the first one `off` bytes
into its page, from the address `a`, with `left` bytes of `data` still to send. -/
def splitEvents (tWcMs : BitVec 17) (c : Descriptor) (base dar : DevAddr) (eps : Nat) :
    (pages a off left : Nat) → (data : List Byte) → List Event
  | 0, _, _, _, _ => []
  | pages + 1, a, off, left, data =>
    selectEvents c base a
      ++ [.wr (updatedDar c base dar a) c.addressWidth (regAddr c.addressWidth a)
            (BitVec.ofNat 17 (min (eps - off) left)) (data.take (min (eps - off) left)),
          .dly tWcMs]
      ++ splitEvents tWcMs c base dar eps pages (a + min (eps - off) left) 0 (left - min (eps - off) left)
          (data.drop (min (eps - off) left))

/-- `dar` agrees with `base` outside the overflow field (41_address_encoder.md R101). -/
def DarAgrees (s : State) : Prop :=
  s.dar &&& ~~~overflowMask s.cfg.overflowBits = s.base &&& ~~~overflowMask s.cfg.overflowBits

/-- The active modes say whether there is a write-protect pin (44_write_protect.md R142). -/
def ModeAgrees (s : State) : Prop :=
  (s.mode = .active → s.wpPresent = false) ∧ (s.mode = .activeWp → s.wpPresent = true)

/-- What the working registers hold while a WRITE is in progress (10_state.md R21 to R26, 42_write_splitter.md R119). -/
def WriteInProgress (s : State) : Prop :=
  s.mode ≠ .uninit
    ∧ s.eps = effectivePageSize s.params s.cfg s.lenL
    ∧ 1 ≤ s.eps.toNat
    ∧ s.addrL.toNat + s.lenL.toNat ≤ s.cfg.capacity.toNat
    ∧ s.bytesSent.toNat ≤ s.lenL.toNat
    ∧ (s.seq = .wPage →
        s.curOff.toNat = nextAddress s % s.eps.toNat
          ∧ 1 ≤ s.pg.toNat
          ∧ (s.lenL = 0#17 ∨ s.bytesSent.toNat < s.lenL.toNat)
          ∧ s.pg.toNat = pagesByFormula s.eps.toNat s.curOff.toNat (s.lenL.toNat - s.bytesSent.toNat))
    ∧ (s.seq = .wDly →
        s.curOff = 0#8
          ∧ (s.bytesSent = s.lenL ∨ nextAddress s % s.eps.toNat = 0)
          ∧ s.pg.toNat = pagesByFormula s.eps.toNat 0 (s.lenL.toNat - s.bytesSent.toNat) + 1)

/-- The invariant of the block. -/
def BlockInv (s : State) : Prop :=
  DarAgrees s ∧ ModeAgrees s ∧ (s.seq ≠ .idle → s.cfg.wellFormed = true ∧ WriteInProgress s)

end Sys2Proof.Machine
end

