-- ==== Sys2Proof/Certificates/Slice0/Obligations.lean ====
section
/-!
DEFINITION. The statements for the provers. Each docstring names the rule or the section of the spec it formalises.
-/

open Sys2Proof Sys2Proof.Machine

/-! ### Encodings -/

/-- 30_encoding.md R72: the operation codes in match and mask form, over every command word. -/
def Obligations.EveryWordDecodes : Prop :=
  ∀ w : CmdWord,
    (w &&& 0xE00000000#36 = 0x000000000#36 → decode w = .ok .init)
      ∧ (w &&& 0xE00000000#36 = 0x200000000#36 →
          decode w = .ok (.write (w.extractLsb' 0 16) (w.extractLsb' 16 17)))
      ∧ (w &&& 0xE00000000#36 = 0x400000000#36 →
          decode w = .ok (.read (w.extractLsb' 0 16) (w.extractLsb' 16 17)))
      ∧ (w &&& 0xE00000000#36 = 0x600000000#36 → decode w = .ok (.read1 (w.extractLsb' 0 16)))
      ∧ (w &&& 0xE00000000#36 = 0x800000000#36 → decode w = .ok .wpa)
      ∧ (w &&& 0xE00000000#36 = 0xA00000000#36 → decode w = .ok .wpc)
      ∧ (w &&& 0xE00000000#36 = 0xC00000000#36 → decode w = .error (.reservedOp 6#3))
      ∧ (w &&& 0xE00000000#36 = 0xE00000000#36 → decode w = .error (.reservedOp 7#3))

/-- Decoding the encoding of any instruction gives it back (30_encoding.md sections 1 and 3). -/
def Obligations.DecodeEncodeRoundTrip : Prop := ∀ i : Instr, decode (encode i) = .ok i

/-- The encoder gives the canonical word: the fields an operation reads as they were, 0 in the others (30_encoding.md
section 1). -/
def Obligations.EncodeGivesCanonicalWord : Prop :=
  ∀ (w : CmdWord) (i : Instr), decode w = .ok i →
    encode i = match i with
      | .init => 0x000000000#36
      | .write _ _ => w
      | .read _ _ => w
      | .read1 _ => w &&& 0xE0000FFFF#36
      | .wpa => 0x800000000#36
      | .wpc => 0xA00000000#36

/-- Command words of 95_test_vectors.md decode to the calls they stand for. -/
def Obligations.VectorWordsDecode : Prop :=
  decode 0x000000000#36 = .ok .init
    ∧ decode 0x2000A0005#36 = .ok (.write 5#16 10#17)
    ∧ decode 0x20024FFDC#36 = .ok (.write 65500#16 36#17)
    ∧ decode 0x500000000#36 = .ok (.read 0#16 65536#17)
    ∧ decode 0x4000802F0#36 = .ok (.read 0x2F0#16 8#17)
    ∧ decode 0x6000007FF#36 = .ok (.read1 0x7FF#16)
    ∧ decode 0x800000000#36 = .ok .wpa
    ∧ decode 0xA00000000#36 = .ok .wpc
    ∧ decode 0xC00000000#36 = .error (.reservedOp 6#3)

/-- Every field of an event word stands where 30_encoding.md R80 puts it, with the code of its kind in R81; a field the
kind does not use is 0. -/
def Obligations.EventWordFields : Prop :=
  ∀ e : Event,
    (eventWord e).extractLsb' 43 3
        = (match e with
            | .sel _ => 0#3
            | .wr _ _ _ _ _ => 1#3
            | .rd _ _ _ _ => 2#3
            | .dly _ => 3#3
            | .pinOut => 4#3
            | .pin _ => 5#3)
      ∧ (eventWord e).extractLsb' 36 7
          = (match e with | .sel da => da | .wr da _ _ _ _ => da | .rd da _ _ _ => da | _ => 0#7)
      ∧ (eventWord e).extractLsb' 34 2
          = (match e with | .wr _ form _ _ _ => form | .rd _ form _ _ => form | _ => 0#2)
      ∧ (eventWord e).extractLsb' 18 16
          = (match e with | .wr _ _ reg _ _ => reg | .rd _ _ reg _ => reg | _ => 0#16)
      ∧ (eventWord e).extractLsb' 1 17
          = (match e with | .wr _ _ _ n _ => n | .rd _ _ _ n => n | .dly ms => ms | _ => 0#17)
      ∧ (eventWord e).extractLsb' 0 1
          = (match e with | .pin level => BitVec.ofBool level | _ => 0#1)

/-- The four fields of a descriptor word stand in bits 16:0, 24:17, 26:25 and 28:27, packed and unpacked; bits 31:29 are
written 0 and ignored; unpacking the packed descriptor gives it back (10_state.md section 4). -/
def Obligations.ChipWordRoundTrip : Prop :=
  (∀ w : BitVec 32,
      (unpackChip w).capacity.toNat = w.toNat % 2 ^ 17
        ∧ (unpackChip w).pageSize.toNat = w.toNat / 2 ^ 17 % 2 ^ 8
        ∧ (unpackChip w).addressWidth.toNat = w.toNat / 2 ^ 25 % 2 ^ 2
        ∧ (unpackChip w).overflowBits.toNat = w.toNat / 2 ^ 27 % 2 ^ 2)
    ∧ (∀ c : Descriptor,
        (packChip c).toNat = c.capacity.toNat + c.pageSize.toNat * 2 ^ 17 + c.addressWidth.toNat * 2 ^ 25
          + c.overflowBits.toNat * 2 ^ 27)
    ∧ (∀ c : Descriptor, unpackChip (packChip c) = c)
    ∧ ∀ w v : BitVec 32, w &&& 0x1FFFFFFF#32 = v &&& 0x1FFFFFFF#32 → unpackChip w = unpackChip v

/-! ### The address encoder -/

/-- 41_address_encoder.md R96: the overflow mask for each value of `ob`. -/
def Obligations.OverflowMaskValues : Prop :=
  overflowMask 0#2 = 0b000#7 ∧ overflowMask 1#2 = 0b001#7 ∧ overflowMask 2#2 = 0b011#7 ∧ overflowMask 3#2 = 0b111#7

/-- 41_address_encoder.md R97: the overflow field is `a[7+ob:8]`, and 0 when `ob = 0`. -/
def Obligations.OverflowFieldOfAddress : Prop :=
  ∀ (ob : BitVec 2) (a : Nat), (ovf ob a).toNat = (a / 256) % 2 ^ ob.toNat

/-- 41_address_encoder.md R98: bits 6 down to `ob` are those of `base`, bits `ob - 1` down to 0 are `a[7+ob:8]`;
properties (a), (b), (c). -/
def Obligations.DeviceAddressSynthesis : Prop :=
  ∀ (base : DevAddr) (ob : BitVec 2) (a : Nat),
    synth base ob a = (base &&& ~~~overflowMask ob) ||| ovf ob a
      ∧ (∀ k, k < 7 → (synth base ob a).getLsbD k = if k < ob.toNat then a.testBit (8 + k) else base.getLsbD k)
      ∧ (ob = 0#2 → synth base ob a = base)
      ∧ (synth base ob a).extractLsb' 3 4 = base.extractLsb' 3 4
      ∧ (∀ base' : DevAddr, base' &&& ~~~overflowMask ob = base &&& ~~~overflowMask ob →
          synth base' ob a = synth base ob a)
      ∧ (∀ b : Nat, (a / 256) % 2 ^ ob.toNat = (b / 256) % 2 ^ ob.toNat → synth base ob a = synth base ob b)

/-- 41_address_encoder.md R100: the register address in the one-byte and in the two-byte form; the form a register write
or a register read carries is `aw`. -/
def Obligations.RegisterAddressForms : Prop :=
  (∀ a : Nat, (regAddr 1#2 a).toNat = a % 256 ∧ (regAddr 2#2 a).toNat = a % 65536)
    ∧ (∀ (a k : Nat) (s : State), ∃ da bytes,
        (issueWrite a k s).events = s.events ++ selectEvents s.cfg s.base a
          ++ [.wr da s.cfg.addressWidth (regAddr s.cfg.addressWidth a) (BitVec.ofNat 17 k) bytes])
    ∧ (∀ (a : Nat) (n : BitVec 17) (s : State), ∃ da,
        (issueRead a n s).events = s.events ++ selectEvents s.cfg s.base a
          ++ [.rd da s.cfg.addressWidth (regAddr s.cfg.addressWidth a) n])

/-- 41_address_encoder.md R103: when the pair of device address and register address determines the address. -/
def Obligations.EncodingFaithfulWhen : Prop :=
  ∀ (c : Descriptor) (base : DevAddr), c.wellFormed = true →
    (c.overflowBits = 0#2 →
        ((∀ a b : Nat, a < c.capacity.toNat → b < c.capacity.toNat →
            synth base c.overflowBits a = synth base c.overflowBits b →
            regAddr c.addressWidth a = regAddr c.addressWidth b → a = b)
          ↔ c.capacity.toNat ≤ 2 ^ (8 * c.addressWidth.toNat)))
      ∧ (c.addressWidth = 1#2 → c.overflowBits ≠ 0#2 →
        ((∀ a b : Nat, a < c.capacity.toNat → b < c.capacity.toNat →
            synth base c.overflowBits a = synth base c.overflowBits b →
            regAddr c.addressWidth a = regAddr c.addressWidth b → a = b)
          ↔ c.capacity.toNat ≤ 2 ^ (8 + c.overflowBits.toNat)))

/-- 41_address_encoder.md R99: `UpdateDA(a)` writes `dar` and emits `SEL(dar)` exactly when `ob > 0`, and changes nothing
else. -/
def Obligations.UpdateDeviceAddress : Prop :=
  ∀ (a : Nat) (s : State),
    (s.cfg.overflowBits = 0#2 → updateDA a s = s)
      ∧ (s.cfg.overflowBits ≠ 0#2 →
          updateDA a s = { s with
            dar := synth s.base s.cfg.overflowBits a
            events := s.events ++ [.sel (synth s.base s.cfg.overflowBits a)] })

/-! ### The splitter's arithmetic -/

/-- 42_write_splitter.md R112: SPLIT_PAGE exactly for more than one address byte and a length above SPLIT_LEN, else the
descriptor's page size; with the defaults that is 16 above 30; a WRITE that passes its checks computes it once from the
requested length, and no step of the WRITE in progress changes it. That SPLIT_PAGE is not 0 is log 19. -/
def Obligations.EffectivePageSizeRule : Prop :=
  (∀ (p : Params) (c : Descriptor) (len : Len),
    (1 < c.addressWidth.toNat ∧ p.splitLen < len.toNat → effectivePageSize p c len = p.splitPage)
      ∧ (¬(1 < c.addressWidth.toNat ∧ p.splitLen < len.toNat) → effectivePageSize p c len = c.pageSize))
    ∧ (∀ (c : Descriptor) (len : Len),
        effectivePageSize Config.defaults c len
          = if 1 < c.addressWidth.toNat ∧ 30 < len.toNat then 16#8 else c.pageSize)
    ∧ (∀ (s : State) (addr : Addr) (len : Len), s.cfg.wellFormed = true → s.params.splitPage ≠ 0#8 →
        Passes s addr len →
          ∃ t, exec (.write addr len) s = .next t ∧ t.eps = effectivePageSize s.params s.cfg len)
    ∧ (∀ s t : State, s.rst = false → s.rstWithin = none → s.seq ≠ .idle → step s = .next t → t.eps = s.eps)

/-- 42_write_splitter.md R114: for a length of at least 1 the page count is the formula's, at least 1, and the ceiling of
the span divided by the page size; the dividend fits 17 bits for every length and offset that can occur. -/
def Obligations.PageCountIsCeiling : Prop :=
  ∀ (z : ZeroLenWrite) (eps off len : Nat), 1 ≤ eps → 1 ≤ len →
    pageCount z eps off len = (len + off - 1) / eps + 1
      ∧ 1 ≤ pageCount z eps off len
      ∧ (pageCount z eps off len - 1) * eps < off + len
      ∧ off + len ≤ pageCount z eps off len * eps
      ∧ (len ≤ 65536 → off ≤ 254 → len + off - 1 < 2 ^ 17)

/-- 42_write_splitter.md R128: the run of a WRITE of at least one byte that passes the checks adds one group of events for
each page and nothing else, SEL WR DLY when `ob > 0` and WR DLY when `ob = 0` (the codes of 30_encoding.md R81), so two
or three events for each page; the delays are of T_WC_MS, one for each page. -/
def Obligations.WriteEventCount : Prop :=
  ∀ (s : State) (addr : Addr) (len : Len) (rest : List CmdWord),
    Ready s → s.seq = .idle → s.cmdIn = encode (.write addr len) :: rest →
    Passes s addr len → 1 ≤ len.toNat → len.toNat ≤ s.wd.length →
      let eps := (effectivePageSize s.params s.cfg len).toNat
      let pages := (len.toNat + addr.toNat % eps - 1) / eps + 1
      ∃ t es, core.run (1 + 2 * pages) s = .next t ∧ t.seq = .idle ∧ t.events = s.events ++ es
        ∧ es.map eventKind
            = (List.replicate pages (if s.cfg.overflowBits = 0#2 then [1#3, 3#3] else [0#3, 1#3, 3#3])).flatten
        ∧ es.length = pages * (if s.cfg.overflowBits = 0#2 then 2 else 3)
        ∧ es.count (.dly s.params.tWcMs) = pages

/-! ### Reset -/

/-- The reset values the spec gives (10_state.md section 9): the configuration follows the inputs, `mode`, `dar`, `seq`
and `rsp_valid` take their values, no event is emitted, and an operation in progress is abandoned. The six working
registers are not mentioned: their value at reset is the model's choice (log 1). That presented commands and streamed
bytes wait across the reset is the model's choice too (log 18). Of a reset inside a step `ResetCutsStep` speaks. -/
def Obligations.ResetStep : Prop :=
  ∀ s : State, s.rst = true →
    ∃ t, step s = .next t
      ∧ t.mode = .uninit ∧ t.seq = .idle ∧ t.rspValid = false
      ∧ t.cfg = unpackChip s.cfgChip ∧ t.bias = s.cfgBias ∧ t.wpPresent = s.cfgWpPresent
      ∧ t.base = s.params.baseAddr ||| s.cfgBias.setWidth 7 ∧ t.dar = t.base
      ∧ t.events = s.events ∧ t.responses = s.responses ∧ t.rdat = s.rdat
      ∧ t.cmdIn = s.cmdIn ∧ t.wd = s.wd ∧ t.tr = s.tr

/-- The state right after reset has the values the spec gives, for the inputs it holds, and the four literals have their
defaults (10_state.md section 9, 00_scope.md section 3). ZERO_LEN_WRITE has its default `none`, which the spec calls open
(42_write_splitter.md section 5): taking it is the model's choice (log 4). The inputs are the model's choice too (log 2). -/
def Obligations.ResetStateValues : Prop :=
  State.reset.mode = .uninit ∧ State.reset.seq = .idle ∧ State.reset.rspValid = false
    ∧ State.reset.cfg = unpackChip State.reset.cfgChip ∧ State.reset.bias = State.reset.cfgBias
    ∧ State.reset.wpPresent = State.reset.cfgWpPresent ∧ State.reset.dar = State.reset.base
    ∧ State.reset.events = []
    ∧ State.reset.params.baseAddr = 0x50#7 ∧ State.reset.params.tWcMs = 5#17
    ∧ State.reset.params.splitLen = 30 ∧ State.reset.params.splitPage = 16#8
    ∧ State.reset.params.zeroLenWrite = .noEvent

/-! ### The step -/

/-- When a block in IDLE is presented a word that decodes to an instruction, and no reset is coming, the step is that
instruction's meaning, with `rsp_valid` lowered and the word taken from the caller's list (10_state.md sections 2 and 8).
A result that emitted an event is kept only if the collaborators return: that the model otherwise stops, with the named
fault `collaboratorSilent`, is its choice (log 6). Of a reset that falls inside the step `ResetCutsStep` speaks. -/
def Obligations.StepRunsPresentedCommand : Prop :=
  ∀ (s : State) (w : CmdWord) (rest : List CmdWord) (i : Instr),
    s.rst = false → s.rstWithin = none → s.seq = .idle → s.cmdIn = w :: rest → decode w = .ok i →
      (s.evReady = true → step s = exec i { s with rspValid := false, cmdIn := rest })
        ∧ (s.evReady = false →
            (∀ t, exec i { s with rspValid := false, cmdIn := rest } = .next t →
              step s = if t.events.length = s.events.length then .next t else .fault .collaboratorSilent)
            ∧ (∀ f, exec i { s with rspValid := false, cmdIn := rest } = .fault f → step s = .fault f)
            ∧ (∀ q, exec i { s with rspValid := false, cmdIn := rest } = .refused q → step s = .refused q))

/-- A block in IDLE with no command presented waits: nothing changes but the pulse `rsp_valid`, which falls (10_state.md
sections 8 and 9). -/
def Obligations.IdleBlockWaits : Prop :=
  ∀ s : State, s.rst = false → s.rstWithin = none → s.cfg.wellFormed = true → s.seq = .idle → s.cmdIn = [] →
    step s = .next { s with rspValid := false }

/-- A command with a reserved operation code is accepted, emits no event, changes no state and completes with `ok = 0`
(30_encoding.md section 4; that the model gives it this effect is log 7). -/
def Obligations.ReservedCommandAnswersZero : Prop :=
  ∀ (s : State) (w : CmdWord) (rest : List CmdWord),
    s.rst = false → s.rstWithin = none → s.cfg.wellFormed = true → s.seq = .idle → s.cmdIn = w :: rest →
    (w.extractLsb' 33 3 = 6#3 ∨ w.extractLsb' 33 3 = 7#3) →
      ∃ t, step s = .next t ∧ t.cmdIn = rest ∧ t.events = s.events
        ∧ SameRegisters s t ∧ SameData s t ∧ Responded false s t

/-- While an operation is in progress no command is accepted: a presented command waits, undisturbed and not dropped
(10_state.md section 8); that it waits across a reset too is log 18. -/
def Obligations.BusyBlockTakesNoCommand : Prop :=
  ∀ s t : State, s.seq ≠ .idle → step s = .next t → t.cmdIn = s.cmdIn

/-- A step never stops when the block is ready and the write data stream holds the next chunk (00_scope.md section 5),
whatever command is presented. That a WRITE or READ of length 0, a READ1 that fails its check and a reserved operation
code run, where the spec advises a model to refuse them, is the model's choice (logs 4, 5, 7); that SPLIT_PAGE is not 0
is part of being ready (log 19). -/
def Obligations.SuppliedStepAlwaysCompletes : Prop :=
  ∀ s : State, Ready s → (s.seq = .wPage → nextChunk s ≤ s.wd.length) → ∃ t, step s = .next t

/-- While the collaborators do not return, a WRITE in progress that has its data is stuck at its next event
(70_reset_and_hazards.md section 3; that the model stops there by name is log 6), unless a reset ends the wait
(`ResetEndsWait`). -/
def Obligations.SilentCollaboratorSticks : Prop :=
  ∀ s : State, s.rst = false → s.rstWithin = none → s.cfg.wellFormed = true → s.evReady = false → s.seq ≠ .idle →
    (s.seq = .wPage → nextChunk s ≤ s.wd.length) → step s = .fault .collaboratorSilent

/-- With fewer bytes on the write data stream than the next chunk, W-PAGE is stuck (70_reset_and_hazards.md section 3;
that the model stops there by name is log 6), unless a reset ends the wait (`ResetEndsWait`). -/
def Obligations.DryWriteDataSticks : Prop :=
  ∀ s : State, s.rst = false → s.rstWithin = none → s.cfg.wellFormed = true → s.seq = .wPage →
    s.wd.length < nextChunk s →
    step s = .fault .writeDataDry

/-- Under an ill-formed descriptor every instruction is refused by name (70_reset_and_hazards.md section 3, log 10). -/
def Obligations.IllFormedDescriptorRefused : Prop :=
  ∀ (i : Instr) (s : State), s.cfg.wellFormed = false → exec i s = .refused .illFormedDescriptor

/-! ### INIT, WPA, WPC -/

/-- 40_lifecycle_init.md R90: INIT, in every mode, and its word. -/
def Obligations.InitSetsModeAndPin : Prop :=
  ∀ s : State, s.cfg.wellFormed = true → encode .init = 0x000000000#36 ∧
    ∃ t, exec .init s = .next t
      ∧ (s.wpPresent = true → t.mode = .activeWp ∧ t.events = s.events ++ [.pinOut, .pin false])
      ∧ (s.wpPresent = false → t.mode = .active ∧ t.events = s.events)
      ∧ SameSetting s t ∧ SameSplitter s t ∧ t.dar = s.dar ∧ t.seq = s.seq
      ∧ SameData s t ∧ t.cmdIn = s.cmdIn ∧ Responded true s t

/-- 40_lifecycle_init.md R91: a second INIT keeps the mode and repeats the pin configuration, which leaves the pin, if
there is one, an output driven low. -/
def Obligations.SecondInitKeepsModeAndClearsPin : Prop :=
  ∀ s : State, s.cfg.wellFormed = true → ModeAgrees s → s.mode ≠ .uninit →
    ∃ t, exec .init s = .next t ∧ t.mode = s.mode
      ∧ (s.mode = .activeWp → t.events = s.events ++ [.pinOut, .pin false]
          ∧ pinIsOutput t.events = true ∧ pinLevel t.events = some false)
      ∧ (s.mode = .active → t.events = s.events)

/-- 40_lifecycle_init.md R92: INIT emits no bus event and does not set the transport's selected address. -/
def Obligations.InitEmitsNoBusEvent : Prop :=
  ∀ s t : State, exec .init s = .next t →
    (∃ es, t.events = s.events ++ es ∧ ∀ e ∈ es, e = .pinOut ∨ ∃ level, e = .pin level)
      ∧ selectedAddress t.events = selectedAddress s.events ∧ t.dar = s.dar

/-- 44_write_protect.md R140: WPA drives the pin high in mode ACTIVE_WP, whatever its level, and does nothing in the
other modes. -/
def Obligations.WpaDrivesPinHigh : Prop :=
  ∀ s : State, s.cfg.wellFormed = true → encode .wpa = 0x800000000#36 ∧
    ∃ t, exec .wpa s = .next t
      ∧ t.events = s.events ++ (if s.mode = .activeWp then [.pin true] else [])
      ∧ SameRegisters s t ∧ SameData s t ∧ t.cmdIn = s.cmdIn ∧ Responded true s t

/-- 44_write_protect.md R141: WPC drives the pin low in mode ACTIVE_WP, whatever its level, and does nothing in the
other modes. -/
def Obligations.WpcDrivesPinLow : Prop :=
  ∀ s : State, s.cfg.wellFormed = true → encode .wpc = 0xA00000000#36 ∧
    ∃ t, exec .wpc s = .next t
      ∧ t.events = s.events ++ (if s.mode = .activeWp then [.pin false] else [])
      ∧ SameRegisters s t ∧ SameData s t ∧ t.cmdIn = s.cmdIn ∧ Responded true s t

/-! ### Checks and failures -/

/-- 60_exceptions.md R150: a WRITE or READ whose check fails ends at once with `ok = 0`, no event and no register written;
no data byte is taken or delivered. -/
def Obligations.FailedCheckChangesNothing : Prop :=
  ∀ (s : State) (addr : Addr) (len : Len) (i : Instr), s.cfg.wellFormed = true →
    (i = .write addr len ∨ i = .read addr len) →
    (s.mode = .uninit ∨ s.cfg.capacity.toNat < addr.toNat + len.toNat) →
      ∃ t, exec i s = .next t ∧ t.events = s.events ∧ SameRegisters s t ∧ SameData s t
        ∧ t.cmdIn = s.cmdIn ∧ Responded false s t

/-- `addr + len <= cap` and an initialised block are necessary and sufficient for the checks to pass: a READ answers
`ok = 1` exactly then, and a WRITE answers `ok = 0` exactly otherwise (42_write_splitter.md section 1, 43_read.md). That
SPLIT_PAGE is not 0 is log 19. -/
def Obligations.ChecksPassExactlyInRange : Prop :=
  ∀ (s : State) (addr : Addr) (len : Len), s.cfg.wellFormed = true → s.params.splitPage ≠ 0#8 →
    (∃ t, exec (.read addr len) s = .next t
        ∧ (Passes s addr len → Responded true s t) ∧ (¬Passes s addr len → Responded false s t))
      ∧ (∃ t, exec (.write addr len) s = .next t ∧ (Responded false s t ↔ ¬Passes s addr len))

/-! ### WRITE -/

/-- 42_write_splitter.md R110: a WRITE that passes the checks writes the six working registers in the one step that
accepts it, and with at least one byte to send begins the page loop; if a check fails none of them is written. Nothing
else happens in either case but the response. The page count of a length of 0 is said in `ZeroLengthWrite`; that
SPLIT_PAGE is not 0 is log 19. -/
def Obligations.WriteAcceptLatches : Prop :=
  ∀ (s : State) (addr : Addr) (len : Len), s.cfg.wellFormed = true → s.params.splitPage ≠ 0#8 →
    ∃ t, exec (.write addr len) s = .next t
      ∧ (Passes s addr len →
          t.addrL = addr ∧ t.lenL = len
          ∧ t.eps = effectivePageSize s.params s.cfg len
          ∧ t.curOff.toNat = addr.toNat % t.eps.toNat
          ∧ t.bytesSent = 0#17
          ∧ (1 ≤ len.toNat →
              t.pg.toNat = (len.toNat + addr.toNat % t.eps.toNat - 1) / t.eps.toNat + 1
              ∧ t.seq = .wPage ∧ t.responses = s.responses ∧ t.rspValid = s.rspValid))
      ∧ (¬Passes s addr len → SameSplitter s t ∧ t.seq = s.seq)
      ∧ t.events = s.events ∧ SameSetting s t ∧ t.mode = s.mode ∧ t.dar = s.dar ∧ SameData s t
      ∧ t.cmdIn = s.cmdIn

/-- A passing WRITE of length 0, for both values of ZERO_LEN_WRITE (42_write_splitter.md section 5; which value the
hardware has is left open, log 4): `none`, or a page-aligned address, completes at once with `ok = 1`, no event and
`pg = 0`; `formula` with an offset begins a loop of one page of 0 bytes. -/
def Obligations.ZeroLengthWrite : Prop :=
  ∀ (s : State) (addr : Addr), s.cfg.wellFormed = true → Passes s addr 0#17 →
    ∃ t, exec (.write addr 0#17) s = .next t
      ∧ t.addrL = addr ∧ t.lenL = 0#17 ∧ t.eps = s.cfg.pageSize
      ∧ t.curOff.toNat = addr.toNat % s.cfg.pageSize.toNat ∧ t.bytesSent = 0#17
      ∧ t.events = s.events ∧ SameSetting s t ∧ t.mode = s.mode ∧ t.dar = s.dar ∧ SameData s t ∧ t.cmdIn = s.cmdIn
      ∧ (if s.params.zeroLenWrite = .noEvent ∨ addr.toNat % s.cfg.pageSize.toNat = 0 then
          t.pg = 0#17 ∧ t.seq = s.seq ∧ Responded true s t
        else t.pg = 1#17 ∧ t.seq = .wPage ∧ t.responses = s.responses)

/-- 42_write_splitter.md R122: W-PAGE performs R115, R116, R117 and the two register writes of R118. -/
def Obligations.PageStepIssuesTransaction : Prop :=
  ∀ s : State, Ready s → s.seq = .wPage →
    min (s.eps.toNat - s.curOff.toNat) (s.lenL.toNat - s.bytesSent.toNat) ≤ s.wd.length →
      ∃ t, step s = .next t ∧
        (let a := s.addrL.toNat + s.bytesSent.toNat
         let chunk := min (s.eps.toNat - s.curOff.toNat) (s.lenL.toNat - s.bytesSent.toNat)
         t.dar = updatedDar s.cfg s.base s.dar a
          ∧ t.events = s.events ++ selectEvents s.cfg s.base a
              ++ [.wr t.dar s.cfg.addressWidth (regAddr s.cfg.addressWidth a) (BitVec.ofNat 17 chunk)
                  (s.wd.take chunk)]
          ∧ t.wd = s.wd.drop chunk
          ∧ t.bytesSent.toNat = s.bytesSent.toNat + chunk ∧ t.curOff = 0#8 ∧ t.seq = .wDly
          ∧ t.addrL = s.addrL ∧ t.lenL = s.lenL ∧ t.eps = s.eps ∧ t.pg = s.pg
          ∧ SameSetting s t ∧ t.mode = s.mode ∧ t.tr = s.tr ∧ t.rdat = s.rdat ∧ t.cmdIn = s.cmdIn ∧ Silent s t
          ∧ t.delayCut = s.delayCut)

/-- W-DLY emits the delay and counts the page down; with no page left the WRITE completes with `ok = 1`, else the loop
goes on (42_write_splitter.md section 6). That the returned delay clears the model's own note `delayCut` of an earlier
delay that a reset cut is the model's choice (log 20). -/
def Obligations.DelayStepCountsPages : Prop :=
  ∀ s : State, Ready s → s.seq = .wDly → 1 ≤ s.pg.toNat →
    ∃ t, step s = .next t
      ∧ t.events = s.events ++ [.dly s.params.tWcMs] ∧ t.pg.toNat = s.pg.toNat - 1
      ∧ (s.pg = 1#17 → t.seq = .idle ∧ Responded true s t)
      ∧ (s.pg ≠ 1#17 → t.seq = .wPage ∧ Silent s t)
      ∧ t.addrL = s.addrL ∧ t.lenL = s.lenL ∧ t.eps = s.eps ∧ t.curOff = s.curOff ∧ t.bytesSent = s.bytesSent
      ∧ SameSetting s t ∧ t.mode = s.mode ∧ t.dar = s.dar ∧ SameData s t ∧ t.cmdIn = s.cmdIn ∧ t.delayCut = false

/-- Each page transaction of a WRITE in progress carries 1 to `eps` bytes (none only for a length of 0) and crosses no
multiple of `eps` (42_write_splitter.md section 4). -/
def Obligations.PageTransactionStaysInPage : Prop :=
  ∀ s t : State, BlockInv s → s.rst = false → s.rstWithin = none → s.seq = .wPage → step s = .next t →
    ∃ da form reg n bytes,
      t.events = s.events ++ selectEvents s.cfg s.base (nextAddress s) ++ [.wr da form reg n bytes]
        ∧ bytes.length = n.toNat ∧ n.toNat ≤ s.eps.toNat
        ∧ (1 ≤ s.lenL.toNat → 1 ≤ n.toNat)
        ∧ (1 ≤ n.toNat → (nextAddress s + n.toNat - 1) / s.eps.toNat = nextAddress s / s.eps.toNat)

/-- A WRITE of at least one byte that passes the checks runs to completion: one acceptance step, then `pages` times
W-PAGE and W-DLY, with the events of the page loop in order, exactly `len` data bytes consumed, and `ok = 1`
(42_write_splitter.md sections 5 and 6). -/
def Obligations.WriteRunsToCompletion : Prop :=
  ∀ (s : State) (addr : Addr) (len : Len) (rest : List CmdWord),
    Ready s → s.seq = .idle → s.cmdIn = encode (.write addr len) :: rest →
    Passes s addr len → 1 ≤ len.toNat → len.toNat ≤ s.wd.length →
      let eps := (effectivePageSize s.params s.cfg len).toNat
      let pages := (len.toNat + addr.toNat % eps - 1) / eps + 1
      ∃ t, core.run (1 + 2 * pages) s = .next t
        ∧ t.events = s.events
            ++ splitEvents s.params.tWcMs s.cfg s.base s.dar eps pages addr.toNat (addr.toNat % eps) len.toNat s.wd
        ∧ t.wd = s.wd.drop len.toNat ∧ t.cmdIn = rest
        ∧ t.seq = .idle ∧ t.addrL = addr ∧ t.lenL = len ∧ t.eps.toNat = eps
        ∧ t.bytesSent = len ∧ t.pg = 0#17 ∧ t.curOff = 0#8
        ∧ t.dar = updatedDar s.cfg s.base s.dar (max addr.toNat ((addr.toNat + len.toNat - 1) / eps * eps))
        ∧ SameSetting s t ∧ t.mode = s.mode ∧ t.tr = s.tr ∧ t.rdat = s.rdat ∧ Responded true s t

/-! ### READ, READ1 -/

/-- 43_read.md R132: a READ that passes the checks issues exactly one RD, preceded by one SEL when `ob > 0`, and delivers
the `len` bytes the transport answers, in order; no delay, no splitting. One that fails them does nothing and answers
`ok = 0`. -/
def Obligations.ReadIssuesOneTransaction : Prop :=
  ∀ (s : State) (addr : Addr) (len : Len), s.cfg.wellFormed = true →
    encode (.read addr len) = 0x400000000#36 ||| len.setWidth 36 <<< 16 ||| addr.setWidth 36 ∧
    ∃ t, exec (.read addr len) s = .next t
      ∧ (Passes s addr len →
          t.dar = updatedDar s.cfg s.base s.dar addr.toNat
          ∧ t.events = s.events ++ selectEvents s.cfg s.base addr.toNat
              ++ [.rd t.dar s.cfg.addressWidth (regAddr s.cfg.addressWidth addr.toNat) len]
          ∧ (∃ bytes : List Byte, bytes.length = len.toNat ∧ t.rdat = s.rdat ++ bytes
              ∧ ∀ k, k < len.toNat → k < s.tr.length → bytes[k]? = s.tr[k]?)
          ∧ t.tr = s.tr.drop len.toNat ∧ Responded true s t)
      ∧ (¬Passes s addr len →
          t.dar = s.dar ∧ t.events = s.events ∧ t.rdat = s.rdat ∧ t.tr = s.tr ∧ Responded false s t)
      ∧ SameSetting s t ∧ SameSplitter s t ∧ t.mode = s.mode ∧ t.seq = s.seq ∧ t.wd = s.wd ∧ t.cmdIn = s.cmdIn

/-- 43_read.md R135: a READ1 whose check passes issues one RD of one byte and returns the byte the transport answers; one
in mode UNINIT or with `addr + 1 > cap` emits no event, writes no register and returns a byte. Which byte a failed READ1
returns, and `rsp_ok` in both cases, are left open. -/
def Obligations.ReadOneReturnsAnswer : Prop :=
  ∀ (s : State) (addr : Addr), s.cfg.wellFormed = true →
    encode (.read1 addr) = 0x600000000#36 ||| addr.setWidth 36 ∧
    ∃ t r, exec (.read1 addr) s = .next t ∧ t.responses = s.responses ++ [r] ∧ t.rspValid = true
      ∧ (s.mode ≠ .uninit ∧ addr.toNat + 1 ≤ s.cfg.capacity.toNat →
          t.dar = updatedDar s.cfg s.base s.dar addr.toNat
          ∧ t.events = s.events ++ selectEvents s.cfg s.base addr.toNat
              ++ [.rd t.dar s.cfg.addressWidth (regAddr s.cfg.addressWidth addr.toNat) 1#17]
          ∧ (∀ b rest, s.tr = b :: rest → r.byte = b)
          ∧ t.tr = s.tr.drop 1)
      ∧ (s.mode = .uninit ∨ s.cfg.capacity.toNat < addr.toNat + 1 →
          t.dar = s.dar ∧ t.events = s.events ∧ t.tr = s.tr)
      ∧ SameSetting s t ∧ SameSplitter s t ∧ t.mode = s.mode ∧ t.seq = s.seq ∧ t.wd = s.wd ∧ t.rdat = s.rdat
      ∧ t.cmdIn = s.cmdIn

/-! ### Frames and whole-machine rules -/

/-- What every instruction leaves unchanged when it answers a next state (00_scope.md section 5, 10_state.md sections 1 to
4): the inputs and the configuration; the write data; `mode` but for INIT; the working registers and `seq` but for
WRITE; `dar`, the transport's answers and the delivered bytes but for READ and READ1 (READ1 delivers none on the
stream). It appends events, and none of them is a register write, so no byte of the reference device changes. For WRITE
this is its accepting step W-ACCEPT, which is its meaning in `exec` (42_write_splitter.md section 6, log 12): `dar` and
the device change in its steps W-PAGE, of which `PageStepIssuesTransaction` and `PageStepStoresOnlyItsChunk` speak. -/
def Obligations.InstructionFrame : Prop :=
  ∀ (i : Instr) (s t : State), exec i s = .next t →
    SameSetting s t ∧ t.cmdIn = s.cmdIn ∧ t.wd = s.wd ∧ t.delayCut = s.delayCut
      ∧ (i ≠ .init → t.mode = s.mode)
      ∧ ((∀ addr len, i ≠ .write addr len) → SameSplitter s t ∧ t.seq = s.seq)
      ∧ ((∀ addr len, i ≠ .read addr len) → t.rdat = s.rdat)
      ∧ ((∀ addr len, i ≠ .read addr len) → (∀ addr, i ≠ .read1 addr) → t.dar = s.dar ∧ t.tr = s.tr)
      ∧ ∃ es, t.events = s.events ++ es
          ∧ (∀ da form reg n bytes, Event.wr da form reg n bytes ∉ es)
          ∧ ∀ (d : RefDevice) (a : Nat), ∃ d', refRun s.cfg s.base d es = some d' ∧ readByte d'.ee a = readByte d.ee a

/-- Under a sound descriptor the events of W-PAGE store exactly the chunk's bytes at the next address of the reference
device, and every other byte is unchanged (42_write_splitter.md section 3, 20_memory.md section 8). The premise that no
write cycle is open, which a reset in the middle of a WRITE may leave, is the wait of 70_reset_and_hazards.md R172, read
off the history and the note of a delay that a reset cut (logs 15, 20); with it, the transaction is issued while none is
open. -/
def Obligations.PageStepStoresOnlyItsChunk : Prop :=
  ∀ (s t : State) (d : RefDevice), BlockInv s → s.cfg.sound s.params = true → d.ee.wf = true → s.rst = false →
    s.rstWithin = none → s.seq = .wPage → s.cycleOpen = false → step s = .next t →
      ∃ es d', t.events = s.events ++ es ∧ refRun s.cfg s.base d es = some d' ∧ d'.ee.wf = true
        ∧ paced s.params.tWcMs s.cycleOpen es = true
        ∧ (∀ x, x < nextAddress s ∨ nextAddress s + nextChunk s ≤ x → readByte d'.ee x = readByte d.ee x)
        ∧ (∀ k, k < nextChunk s → some (readByte d'.ee (nextAddress s + k)) = s.wd[k]?)

/-- The transitions of `mode`: reset, at the start of a step or inside it, to UNINIT; outside reset only by INIT, to ACTIVE_WP with a write-protect pin and to
ACTIVE without one (40_lifecycle_init.md R93). -/
def Obligations.ModeChangesOnlyByInit : Prop :=
  ∀ s t : State, step s = .next t →
    ((s.rst = true ∨ s.rstWithin ≠ none) ∧ t.mode = .uninit)
      ∨ t.mode = s.mode
      ∨ (s.rst = false ∧ s.seq = .idle ∧ (∃ w rest, s.cmdIn = w :: rest ∧ decode w = .ok .init)
          ∧ t.mode = if s.wpPresent then .activeWp else .active)

/-- The configuration registers are loaded at reset, at the start of a step or inside it, from the inputs and never change
outside reset, and the build's parameters never change (10_state.md R29, 00_scope.md R16). -/
def Obligations.ConfigurationIsFixed : Prop :=
  ∀ s t : State, step s = .next t →
    t.params = s.params
      ∧ (if s.rst = true then
          t.cfg = unpackChip s.cfgChip ∧ t.bias = s.cfgBias ∧ t.wpPresent = s.cfgWpPresent
        else
          (t.cfg = s.cfg ∧ t.bias = s.bias ∧ t.wpPresent = s.wpPresent ∧ t.base = s.base)
            ∨ (s.rstWithin ≠ none ∧ t.rstWithin = none
              ∧ t.cfg = unpackChip s.cfgChip ∧ t.bias = s.cfgBias ∧ t.wpPresent = s.cfgWpPresent))

/-- Output histories only grow: no step, reset included, takes back an event, a response or a delivered byte
(20_memory.md sections 4 and 6 for events; 10_state.md section 9 and 00_scope.md section 5 for reset and results). That
the responses and the delivered bytes are kept as histories, and that reset takes nothing back, is log 17. -/
def Obligations.HistoryOnlyGrows : Prop :=
  ∀ s t : State, step s = .next t →
    s.events <+: t.events ∧ s.responses <+: t.responses ∧ s.rdat <+: t.rdat

/-- Every bus event of a step carries a device address that agrees with `base` outside the overflow field, so with the
default BASE_ADDR one of 0x50 to 0x57 (20_memory.md R51). -/
def Obligations.BusAddressesAreInTheFamily : Prop :=
  ∀ s t : State, DarAgrees s → s.rst = false → step s = .next t →
    ∃ es, t.events = s.events ++ es ∧
      ∀ e ∈ es, ∀ da : DevAddr,
        (e = .sel da ∨ (∃ form reg n bytes, e = .wr da form reg n bytes) ∨ (∃ form reg n, e = .rd da form reg n)) →
          da &&& ~~~overflowMask s.cfg.overflowBits = s.base &&& ~~~overflowMask s.cfg.overflowBits
            ∧ (s.params.baseAddr = 0x50#7 → 0x50 ≤ da.toNat ∧ da.toNat ≤ 0x57)

/-- The block does not look at its own history: what stands in the event stream (so whatever the level of the
write-protect pin, the selected address or a write cycle) changes nothing of what a step does (44_write_protect.md R143,
10_state.md R36). -/
def Obligations.PastEventsDoNotMatter : Prop :=
  ∀ (s t : State) (past : List Event), step s = .next t →
    step { s with events := past ++ s.events } = .next { t with events := past ++ t.events }

/-- WRITE, READ and READ1 do the same in both active modes (60_exceptions.md R160, 44_write_protect.md R143): as
instructions, where WRITE is its accepting step (log 12), and as steps, which take in W-PAGE and W-DLY; a reset inside
such a step leaves the same state in both. -/
def Obligations.ActiveModesRunAlike : Prop :=
  (∀ (s t : State) (i : Instr),
    ((∃ addr len, i = .write addr len) ∨ (∃ addr len, i = .read addr len) ∨ (∃ addr, i = .read1 addr)) →
    exec i { s with mode := .active } = .next t →
      exec i { s with mode := .activeWp } = .next { t with mode := .activeWp })
    ∧ (∀ s t : State, s.rst = false →
        (s.seq = .idle → ∃ w rest, s.cmdIn = w :: rest
          ∧ ((∃ addr len, decode w = .ok (.write addr len)) ∨ (∃ addr len, decode w = .ok (.read addr len))
            ∨ (∃ addr, decode w = .ok (.read1 addr)))) →
        step { s with mode := .active } = .next t →
          (t.mode = .active ∧ step { s with mode := .activeWp } = .next { t with mode := .activeWp })
            ∨ (s.rstWithin ≠ none ∧ t.mode = .uninit ∧ step { s with mode := .activeWp } = .next t))

/-- With overflow bits `dar` mirrors the transport's selected address: outside reset, if the last SEL carried `dar` (or
there was none), then so after every step (10_state.md R36 (a), R33). The selection is read off this block's own history:
that no other user of the bus selects is the model's premise (log 9). -/
def Obligations.DarMirrorsSelection : Prop :=
  ∀ s t : State, s.rst = false → s.rstWithin = none → step s = .next t → s.cfg.overflowBits ≠ 0#2 →
    (selectedAddress s.events = none ∨ selectedAddress s.events = some s.dar) →
      selectedAddress t.events = none ∨ selectedAddress t.events = some t.dar

/-- Outside reset a device write cycle that this block started is open only between W-PAGE and W-DLY, so none is open when
a command is accepted (43_read.md R136, 20_memory.md R59). An open cycle is read off this block's own history and the note
of a delay that a reset cut (log 20), T_WC_MS taken as long enough (log 15) and other bus users left out (log 9). -/
def Obligations.NoWriteCycleOpenInIdle : Prop :=
  ∀ s t : State, s.rst = false → s.rstWithin = none → step s = .next t →
    (s.cycleOpen = true → s.seq = .wDly) → (t.cycleOpen = true → t.seq = .wDly)

/-! ### Headline results -/

/-- The invariant holds after every reset step, whatever the state held before it, and in the state right after reset,
whose inputs are the model's choice (10_state.md section 9, log 2). -/
def Obligations.InvariantHoldsAtReset : Prop :=
  BlockInv State.reset ∧ ∀ s : State, s.rst = true → ∃ t, step s = .next t ∧ BlockInv t

/-- Every step, reset included, keeps the invariant (42_write_splitter.md section 4, 41_address_encoder.md R101,
44_write_protect.md R142). -/
def Obligations.EveryStepKeepsInvariant : Prop := ∀ s t : State, BlockInv s → step s = .next t → BlockInv t

/-- Read after write (20_memory.md R60): under a sound descriptor and with the reference device as the environment, a
WRITE followed by a READ of the same range, which lies in one overflow region when `ob > 0`, reads the bytes written: the
device answers the READ's RD with them, and when the transport's answers are the device's they are delivered, in order.
Every byte outside the range is unchanged, and both operations answer `ok = 1`. The premise that no write cycle is open at
the start, which a reset in the middle of an earlier WRITE may leave, is the wait of 70_reset_and_hazards.md R172, read
off the history and the note of a delay that a reset cut (logs 15, 20); with it, no transaction of the run is issued while
one is open. -/
def Obligations.WriteThenReadReturnsWritten : Prop :=
  ∀ (s : State) (addr : Addr) (len : Len) (rest : List CmdWord) (d : RefDevice),
    Ready s → BlockInv s → s.cfg.sound s.params = true → d.ee.wf = true → s.seq = .idle →
    s.cycleOpen = false →
    s.cmdIn = encode (.write addr len) :: encode (.read addr len) :: rest →
    Passes s addr len → 1 ≤ len.toNat → len.toNat ≤ s.wd.length →
    (s.cfg.overflowBits = 0#2 ∨ addr.toNat / 256 = (addr.toNat + len.toNat - 1) / 256) →
      ∃ k t es e d', core.run k s = .next t ∧ t.seq = .idle ∧ t.cmdIn = rest
        ∧ t.events = s.events ++ es ++ [e]
        ∧ paced s.params.tWcMs s.cycleOpen (es ++ [e]) = true
        ∧ refRun s.cfg s.base d es = some d'
        ∧ refAnswer s.cfg s.base d' e = (s.wd.take len.toNat).map some
        ∧ ((s.tr.take len.toNat).map some = refAnswer s.cfg s.base d' e → t.rdat = s.rdat ++ s.wd.take len.toNat)
        ∧ (∀ x, x < addr.toNat ∨ addr.toNat + len.toNat ≤ x → readByte d'.ee x = readByte d.ee x)
        ∧ ∃ b1 b2 : Byte, t.responses = s.responses ++ [{ ok := true, byte := b1 }, { ok := true, byte := b2 }]

/-! ### A build with SPLIT_PAGE = 0 -/

/-- A WRITE that passes its checks is refused by name exactly when its effective page size is 0, which only a build with
SPLIT_PAGE = 0 gives (42_write_splitter.md section 2; the refusal is log 19). -/
def Obligations.ZeroPageSizeRefused : Prop :=
  ∀ (s : State) (addr : Addr) (len : Len), s.cfg.wellFormed = true → Passes s addr len →
    (exec (.write addr len) s = .refused .zeroPageSize ↔
      s.params.splitPage = 0#8 ∧ 1 < s.cfg.addressWidth.toNat ∧ s.params.splitLen < len.toNat)

/-! ### A reset inside a step -/

/-- The caller may apply reset at any time (00_scope.md section 5, 60_exceptions.md section 2): inside a step too, at any of
its events. The events emitted so far stay, the last of them as far as its bytes have gone, and no other follows; the
command that was accepted is gone and has no response; the registers take their reset values (10_state.md section 9).
What becomes of the outstanding event and its bytes is the model's choice (log 20). The six working registers are not
mentioned (log 1). -/
def Obligations.ResetCutsStep : Prop :=
  ∀ (s u : State) (p : ResetPoint), s.rst = false → s.rstWithin = some p → advance (beginStep s) = .next u →
    p.emitted ≤ (stepEvents s u).length → (s.evReady = true ∨ p.emitted ≤ 1) →
    (s.seq = .wPage → min p.moved (nextChunk s) ≤ s.wd.length) →
      ∃ t es, step s = .next t ∧ t.events = s.events ++ es ∧ es.length = p.emitted
        ∧ (∀ k, k + 1 < p.emitted → es[k]? = (stepEvents s u)[k]?)
        ∧ es.getLast? = ((stepEvents s u).take p.emitted).getLast?.map (cutEvent p.moved)
        ∧ t.mode = .uninit ∧ t.seq = .idle ∧ t.rspValid = false
        ∧ t.cfg = unpackChip s.cfgChip ∧ t.bias = s.cfgBias ∧ t.wpPresent = s.cfgWpPresent
        ∧ t.base = s.params.baseAddr ||| s.cfgBias.setWidth 7 ∧ t.dar = t.base
        ∧ t.cmdIn = u.cmdIn ∧ t.responses = s.responses ∧ t.rstWithin = none
        ∧ (match es.getLast? with
            | some (.wr _ _ _ n _) =>
              t.wd = s.wd.drop (min p.moved n.toNat) ∧ t.tr = s.tr ∧ t.rdat = s.rdat ∧ t.delayCut = s.delayCut
            | some (.rd _ _ _ n) =>
              t.wd = s.wd ∧ t.tr = s.tr.drop (min p.moved n.toNat) ∧ t.rdat = u.rdat.take (s.rdat.length + p.moved)
                ∧ t.delayCut = s.delayCut
            | some (.dly _) => SameData s t ∧ t.delayCut = true
            | _ => SameData s t ∧ t.delayCut = s.delayCut)

/-- A WRITE in progress that waits, be it for ever, for a collaborator or for its data is ended by a reset
(00_scope.md section 5, 60_exceptions.md section 2): one that falls on the step's first event leaves a block in IDLE,
uninitialised, with one event emitted and no response. Which event that is, this statement leaves open: `ResetCutsStep`
names it. What becomes of it and its bytes is the model's choice (log 20). -/
def Obligations.ResetEndsWait : Prop :=
  ∀ s : State, s.rst = false → s.rstWithin = some { emitted := 1, moved := 0 } → s.cfg.wellFormed = true →
    s.seq ≠ .idle →
      ∃ t e, step s = .next t ∧ t.seq = .idle ∧ t.mode = .uninit ∧ t.events = s.events ++ [e]
        ∧ t.responses = s.responses ∧ t.rspValid = false ∧ t.cmdIn = s.cmdIn ∧ SameData s t
end

