-- ==== Sys2Proof/Laws/State.lean ====
section
/-!
SUPPORT. What each state update does to each field, one lemma per field and update, so that no proof unfolds a record
update.
-/

namespace Sys2Proof.Machine

variable (e : Event) (m : Mode) (q : Seq) (ok : Bool) (byte : Byte) (bytes : List Byte) (rest : List CmdWord)
  (addr : Addr) (len : Len) (n : Nat) (s : State)

/-! ### emit -/

@[simp] theorem emit_rst : (emit e s).rst = s.rst := rfl
@[simp] theorem emit_cfgChip : (emit e s).cfgChip = s.cfgChip := rfl
@[simp] theorem emit_cfgBias : (emit e s).cfgBias = s.cfgBias := rfl
@[simp] theorem emit_cfgWpPresent : (emit e s).cfgWpPresent = s.cfgWpPresent := rfl
@[simp] theorem emit_cmdIn : (emit e s).cmdIn = s.cmdIn := rfl
@[simp] theorem emit_wd : (emit e s).wd = s.wd := rfl
@[simp] theorem emit_tr : (emit e s).tr = s.tr := rfl
@[simp] theorem emit_evReady : (emit e s).evReady = s.evReady := rfl
@[simp] theorem emit_rstWithin : (emit e s).rstWithin = s.rstWithin := rfl
@[simp] theorem emit_delayCut : (emit e s).delayCut = s.delayCut := rfl
@[simp] theorem emit_params : (emit e s).params = s.params := rfl
@[simp] theorem emit_cfg : (emit e s).cfg = s.cfg := rfl
@[simp] theorem emit_bias : (emit e s).bias = s.bias := rfl
@[simp] theorem emit_wpPresent : (emit e s).wpPresent = s.wpPresent := rfl
@[simp] theorem emit_mode : (emit e s).mode = s.mode := rfl
@[simp] theorem emit_dar : (emit e s).dar = s.dar := rfl
@[simp] theorem emit_seq : (emit e s).seq = s.seq := rfl
@[simp] theorem emit_addrL : (emit e s).addrL = s.addrL := rfl
@[simp] theorem emit_lenL : (emit e s).lenL = s.lenL := rfl
@[simp] theorem emit_eps : (emit e s).eps = s.eps := rfl
@[simp] theorem emit_curOff : (emit e s).curOff = s.curOff := rfl
@[simp] theorem emit_bytesSent : (emit e s).bytesSent = s.bytesSent := rfl
@[simp] theorem emit_pg : (emit e s).pg = s.pg := rfl
@[simp] theorem emit_events : (emit e s).events = s.events ++ [e] := rfl
@[simp] theorem emit_rdat : (emit e s).rdat = s.rdat := rfl
@[simp] theorem emit_responses : (emit e s).responses = s.responses := rfl
@[simp] theorem emit_rspValid : (emit e s).rspValid = s.rspValid := rfl
@[simp] theorem emit_draws : (emit e s).draws = s.draws := rfl
@[simp] theorem emit_base : (emit e s).base = s.base := rfl

/-! ### setMode -/

@[simp] theorem setMode_rst : (setMode m s).rst = s.rst := rfl
@[simp] theorem setMode_cfgChip : (setMode m s).cfgChip = s.cfgChip := rfl
@[simp] theorem setMode_cfgBias : (setMode m s).cfgBias = s.cfgBias := rfl
@[simp] theorem setMode_cfgWpPresent : (setMode m s).cfgWpPresent = s.cfgWpPresent := rfl
@[simp] theorem setMode_cmdIn : (setMode m s).cmdIn = s.cmdIn := rfl
@[simp] theorem setMode_wd : (setMode m s).wd = s.wd := rfl
@[simp] theorem setMode_tr : (setMode m s).tr = s.tr := rfl
@[simp] theorem setMode_evReady : (setMode m s).evReady = s.evReady := rfl
@[simp] theorem setMode_rstWithin : (setMode m s).rstWithin = s.rstWithin := rfl
@[simp] theorem setMode_delayCut : (setMode m s).delayCut = s.delayCut := rfl
@[simp] theorem setMode_params : (setMode m s).params = s.params := rfl
@[simp] theorem setMode_cfg : (setMode m s).cfg = s.cfg := rfl
@[simp] theorem setMode_bias : (setMode m s).bias = s.bias := rfl
@[simp] theorem setMode_wpPresent : (setMode m s).wpPresent = s.wpPresent := rfl
@[simp] theorem setMode_mode : (setMode m s).mode = m := rfl
@[simp] theorem setMode_dar : (setMode m s).dar = s.dar := rfl
@[simp] theorem setMode_seq : (setMode m s).seq = s.seq := rfl
@[simp] theorem setMode_addrL : (setMode m s).addrL = s.addrL := rfl
@[simp] theorem setMode_lenL : (setMode m s).lenL = s.lenL := rfl
@[simp] theorem setMode_eps : (setMode m s).eps = s.eps := rfl
@[simp] theorem setMode_curOff : (setMode m s).curOff = s.curOff := rfl
@[simp] theorem setMode_bytesSent : (setMode m s).bytesSent = s.bytesSent := rfl
@[simp] theorem setMode_pg : (setMode m s).pg = s.pg := rfl
@[simp] theorem setMode_events : (setMode m s).events = s.events := rfl
@[simp] theorem setMode_rdat : (setMode m s).rdat = s.rdat := rfl
@[simp] theorem setMode_responses : (setMode m s).responses = s.responses := rfl
@[simp] theorem setMode_rspValid : (setMode m s).rspValid = s.rspValid := rfl
@[simp] theorem setMode_draws : (setMode m s).draws = s.draws := rfl
@[simp] theorem setMode_base : (setMode m s).base = s.base := rfl

/-! ### setSeq -/

@[simp] theorem setSeq_rst : (setSeq q s).rst = s.rst := rfl
@[simp] theorem setSeq_cfgChip : (setSeq q s).cfgChip = s.cfgChip := rfl
@[simp] theorem setSeq_cfgBias : (setSeq q s).cfgBias = s.cfgBias := rfl
@[simp] theorem setSeq_cfgWpPresent : (setSeq q s).cfgWpPresent = s.cfgWpPresent := rfl
@[simp] theorem setSeq_cmdIn : (setSeq q s).cmdIn = s.cmdIn := rfl
@[simp] theorem setSeq_wd : (setSeq q s).wd = s.wd := rfl
@[simp] theorem setSeq_tr : (setSeq q s).tr = s.tr := rfl
@[simp] theorem setSeq_evReady : (setSeq q s).evReady = s.evReady := rfl
@[simp] theorem setSeq_rstWithin : (setSeq q s).rstWithin = s.rstWithin := rfl
@[simp] theorem setSeq_delayCut : (setSeq q s).delayCut = s.delayCut := rfl
@[simp] theorem setSeq_params : (setSeq q s).params = s.params := rfl
@[simp] theorem setSeq_cfg : (setSeq q s).cfg = s.cfg := rfl
@[simp] theorem setSeq_bias : (setSeq q s).bias = s.bias := rfl
@[simp] theorem setSeq_wpPresent : (setSeq q s).wpPresent = s.wpPresent := rfl
@[simp] theorem setSeq_mode : (setSeq q s).mode = s.mode := rfl
@[simp] theorem setSeq_dar : (setSeq q s).dar = s.dar := rfl
@[simp] theorem setSeq_seq : (setSeq q s).seq = q := rfl
@[simp] theorem setSeq_addrL : (setSeq q s).addrL = s.addrL := rfl
@[simp] theorem setSeq_lenL : (setSeq q s).lenL = s.lenL := rfl
@[simp] theorem setSeq_eps : (setSeq q s).eps = s.eps := rfl
@[simp] theorem setSeq_curOff : (setSeq q s).curOff = s.curOff := rfl
@[simp] theorem setSeq_bytesSent : (setSeq q s).bytesSent = s.bytesSent := rfl
@[simp] theorem setSeq_pg : (setSeq q s).pg = s.pg := rfl
@[simp] theorem setSeq_events : (setSeq q s).events = s.events := rfl
@[simp] theorem setSeq_rdat : (setSeq q s).rdat = s.rdat := rfl
@[simp] theorem setSeq_responses : (setSeq q s).responses = s.responses := rfl
@[simp] theorem setSeq_rspValid : (setSeq q s).rspValid = s.rspValid := rfl
@[simp] theorem setSeq_draws : (setSeq q s).draws = s.draws := rfl
@[simp] theorem setSeq_base : (setSeq q s).base = s.base := rfl

/-! ### takeData -/

@[simp] theorem takeData_rst : (takeData n s).rst = s.rst := rfl
@[simp] theorem takeData_cfgChip : (takeData n s).cfgChip = s.cfgChip := rfl
@[simp] theorem takeData_cfgBias : (takeData n s).cfgBias = s.cfgBias := rfl
@[simp] theorem takeData_cfgWpPresent : (takeData n s).cfgWpPresent = s.cfgWpPresent := rfl
@[simp] theorem takeData_cmdIn : (takeData n s).cmdIn = s.cmdIn := rfl
@[simp] theorem takeData_wd : (takeData n s).wd = s.wd.drop n := rfl
@[simp] theorem takeData_tr : (takeData n s).tr = s.tr := rfl
@[simp] theorem takeData_evReady : (takeData n s).evReady = s.evReady := rfl
@[simp] theorem takeData_rstWithin : (takeData n s).rstWithin = s.rstWithin := rfl
@[simp] theorem takeData_delayCut : (takeData n s).delayCut = s.delayCut := rfl
@[simp] theorem takeData_params : (takeData n s).params = s.params := rfl
@[simp] theorem takeData_cfg : (takeData n s).cfg = s.cfg := rfl
@[simp] theorem takeData_bias : (takeData n s).bias = s.bias := rfl
@[simp] theorem takeData_wpPresent : (takeData n s).wpPresent = s.wpPresent := rfl
@[simp] theorem takeData_mode : (takeData n s).mode = s.mode := rfl
@[simp] theorem takeData_dar : (takeData n s).dar = s.dar := rfl
@[simp] theorem takeData_seq : (takeData n s).seq = s.seq := rfl
@[simp] theorem takeData_addrL : (takeData n s).addrL = s.addrL := rfl
@[simp] theorem takeData_lenL : (takeData n s).lenL = s.lenL := rfl
@[simp] theorem takeData_eps : (takeData n s).eps = s.eps := rfl
@[simp] theorem takeData_curOff : (takeData n s).curOff = s.curOff := rfl
@[simp] theorem takeData_bytesSent : (takeData n s).bytesSent = s.bytesSent := rfl
@[simp] theorem takeData_pg : (takeData n s).pg = s.pg := rfl
@[simp] theorem takeData_events : (takeData n s).events = s.events := rfl
@[simp] theorem takeData_rdat : (takeData n s).rdat = s.rdat := rfl
@[simp] theorem takeData_responses : (takeData n s).responses = s.responses := rfl
@[simp] theorem takeData_rspValid : (takeData n s).rspValid = s.rspValid := rfl
@[simp] theorem takeData_draws : (takeData n s).draws = s.draws := rfl
@[simp] theorem takeData_base : (takeData n s).base = s.base := rfl

/-! ### popCommand -/

@[simp] theorem popCommand_rst : (popCommand rest s).rst = s.rst := rfl
@[simp] theorem popCommand_cfgChip : (popCommand rest s).cfgChip = s.cfgChip := rfl
@[simp] theorem popCommand_cfgBias : (popCommand rest s).cfgBias = s.cfgBias := rfl
@[simp] theorem popCommand_cfgWpPresent : (popCommand rest s).cfgWpPresent = s.cfgWpPresent := rfl
@[simp] theorem popCommand_cmdIn : (popCommand rest s).cmdIn = rest := rfl
@[simp] theorem popCommand_wd : (popCommand rest s).wd = s.wd := rfl
@[simp] theorem popCommand_tr : (popCommand rest s).tr = s.tr := rfl
@[simp] theorem popCommand_evReady : (popCommand rest s).evReady = s.evReady := rfl
@[simp] theorem popCommand_rstWithin : (popCommand rest s).rstWithin = s.rstWithin := rfl
@[simp] theorem popCommand_delayCut : (popCommand rest s).delayCut = s.delayCut := rfl
@[simp] theorem popCommand_params : (popCommand rest s).params = s.params := rfl
@[simp] theorem popCommand_cfg : (popCommand rest s).cfg = s.cfg := rfl
@[simp] theorem popCommand_bias : (popCommand rest s).bias = s.bias := rfl
@[simp] theorem popCommand_wpPresent : (popCommand rest s).wpPresent = s.wpPresent := rfl
@[simp] theorem popCommand_mode : (popCommand rest s).mode = s.mode := rfl
@[simp] theorem popCommand_dar : (popCommand rest s).dar = s.dar := rfl
@[simp] theorem popCommand_seq : (popCommand rest s).seq = s.seq := rfl
@[simp] theorem popCommand_addrL : (popCommand rest s).addrL = s.addrL := rfl
@[simp] theorem popCommand_lenL : (popCommand rest s).lenL = s.lenL := rfl
@[simp] theorem popCommand_eps : (popCommand rest s).eps = s.eps := rfl
@[simp] theorem popCommand_curOff : (popCommand rest s).curOff = s.curOff := rfl
@[simp] theorem popCommand_bytesSent : (popCommand rest s).bytesSent = s.bytesSent := rfl
@[simp] theorem popCommand_pg : (popCommand rest s).pg = s.pg := rfl
@[simp] theorem popCommand_events : (popCommand rest s).events = s.events := rfl
@[simp] theorem popCommand_rdat : (popCommand rest s).rdat = s.rdat := rfl
@[simp] theorem popCommand_responses : (popCommand rest s).responses = s.responses := rfl
@[simp] theorem popCommand_rspValid : (popCommand rest s).rspValid = s.rspValid := rfl
@[simp] theorem popCommand_draws : (popCommand rest s).draws = s.draws := rfl
@[simp] theorem popCommand_base : (popCommand rest s).base = s.base := rfl

/-! ### respond -/

@[simp] theorem respond_rst : (respond ok byte s).rst = s.rst := rfl
@[simp] theorem respond_cfgChip : (respond ok byte s).cfgChip = s.cfgChip := rfl
@[simp] theorem respond_cfgBias : (respond ok byte s).cfgBias = s.cfgBias := rfl
@[simp] theorem respond_cfgWpPresent : (respond ok byte s).cfgWpPresent = s.cfgWpPresent := rfl
@[simp] theorem respond_cmdIn : (respond ok byte s).cmdIn = s.cmdIn := rfl
@[simp] theorem respond_wd : (respond ok byte s).wd = s.wd := rfl
@[simp] theorem respond_tr : (respond ok byte s).tr = s.tr := rfl
@[simp] theorem respond_evReady : (respond ok byte s).evReady = s.evReady := rfl
@[simp] theorem respond_rstWithin : (respond ok byte s).rstWithin = s.rstWithin := rfl
@[simp] theorem respond_delayCut : (respond ok byte s).delayCut = s.delayCut := rfl
@[simp] theorem respond_params : (respond ok byte s).params = s.params := rfl
@[simp] theorem respond_cfg : (respond ok byte s).cfg = s.cfg := rfl
@[simp] theorem respond_bias : (respond ok byte s).bias = s.bias := rfl
@[simp] theorem respond_wpPresent : (respond ok byte s).wpPresent = s.wpPresent := rfl
@[simp] theorem respond_mode : (respond ok byte s).mode = s.mode := rfl
@[simp] theorem respond_dar : (respond ok byte s).dar = s.dar := rfl
@[simp] theorem respond_seq : (respond ok byte s).seq = s.seq := rfl
@[simp] theorem respond_addrL : (respond ok byte s).addrL = s.addrL := rfl
@[simp] theorem respond_lenL : (respond ok byte s).lenL = s.lenL := rfl
@[simp] theorem respond_eps : (respond ok byte s).eps = s.eps := rfl
@[simp] theorem respond_curOff : (respond ok byte s).curOff = s.curOff := rfl
@[simp] theorem respond_bytesSent : (respond ok byte s).bytesSent = s.bytesSent := rfl
@[simp] theorem respond_pg : (respond ok byte s).pg = s.pg := rfl
@[simp] theorem respond_events : (respond ok byte s).events = s.events := rfl
@[simp] theorem respond_rdat : (respond ok byte s).rdat = s.rdat := rfl
@[simp] theorem respond_responses : (respond ok byte s).responses = s.responses ++ [{ ok := ok, byte := byte }] := rfl
@[simp] theorem respond_rspValid : (respond ok byte s).rspValid = true := rfl
@[simp] theorem respond_draws : (respond ok byte s).draws = s.draws + 1 := rfl
@[simp] theorem respond_base : (respond ok byte s).base = s.base := rfl

/-! ### deliver -/

@[simp] theorem deliver_rst : (deliver bytes s).rst = s.rst := rfl
@[simp] theorem deliver_cfgChip : (deliver bytes s).cfgChip = s.cfgChip := rfl
@[simp] theorem deliver_cfgBias : (deliver bytes s).cfgBias = s.cfgBias := rfl
@[simp] theorem deliver_cfgWpPresent : (deliver bytes s).cfgWpPresent = s.cfgWpPresent := rfl
@[simp] theorem deliver_cmdIn : (deliver bytes s).cmdIn = s.cmdIn := rfl
@[simp] theorem deliver_wd : (deliver bytes s).wd = s.wd := rfl
@[simp] theorem deliver_tr : (deliver bytes s).tr = s.tr := rfl
@[simp] theorem deliver_evReady : (deliver bytes s).evReady = s.evReady := rfl
@[simp] theorem deliver_rstWithin : (deliver bytes s).rstWithin = s.rstWithin := rfl
@[simp] theorem deliver_delayCut : (deliver bytes s).delayCut = s.delayCut := rfl
@[simp] theorem deliver_params : (deliver bytes s).params = s.params := rfl
@[simp] theorem deliver_cfg : (deliver bytes s).cfg = s.cfg := rfl
@[simp] theorem deliver_bias : (deliver bytes s).bias = s.bias := rfl
@[simp] theorem deliver_wpPresent : (deliver bytes s).wpPresent = s.wpPresent := rfl
@[simp] theorem deliver_mode : (deliver bytes s).mode = s.mode := rfl
@[simp] theorem deliver_dar : (deliver bytes s).dar = s.dar := rfl
@[simp] theorem deliver_seq : (deliver bytes s).seq = s.seq := rfl
@[simp] theorem deliver_addrL : (deliver bytes s).addrL = s.addrL := rfl
@[simp] theorem deliver_lenL : (deliver bytes s).lenL = s.lenL := rfl
@[simp] theorem deliver_eps : (deliver bytes s).eps = s.eps := rfl
@[simp] theorem deliver_curOff : (deliver bytes s).curOff = s.curOff := rfl
@[simp] theorem deliver_bytesSent : (deliver bytes s).bytesSent = s.bytesSent := rfl
@[simp] theorem deliver_pg : (deliver bytes s).pg = s.pg := rfl
@[simp] theorem deliver_events : (deliver bytes s).events = s.events := rfl
@[simp] theorem deliver_rdat : (deliver bytes s).rdat = s.rdat ++ bytes := rfl
@[simp] theorem deliver_responses : (deliver bytes s).responses = s.responses := rfl
@[simp] theorem deliver_rspValid : (deliver bytes s).rspValid = s.rspValid := rfl
@[simp] theorem deliver_draws : (deliver bytes s).draws = s.draws := rfl
@[simp] theorem deliver_base : (deliver bytes s).base = s.base := rfl

/-! ### takeAnswer -/

@[simp] theorem takeAnswer_rst : (takeAnswer n s).rst = s.rst := rfl
@[simp] theorem takeAnswer_cfgChip : (takeAnswer n s).cfgChip = s.cfgChip := rfl
@[simp] theorem takeAnswer_cfgBias : (takeAnswer n s).cfgBias = s.cfgBias := rfl
@[simp] theorem takeAnswer_cfgWpPresent : (takeAnswer n s).cfgWpPresent = s.cfgWpPresent := rfl
@[simp] theorem takeAnswer_cmdIn : (takeAnswer n s).cmdIn = s.cmdIn := rfl
@[simp] theorem takeAnswer_wd : (takeAnswer n s).wd = s.wd := rfl
@[simp] theorem takeAnswer_tr : (takeAnswer n s).tr = s.tr.drop n := rfl
@[simp] theorem takeAnswer_evReady : (takeAnswer n s).evReady = s.evReady := rfl
@[simp] theorem takeAnswer_rstWithin : (takeAnswer n s).rstWithin = s.rstWithin := rfl
@[simp] theorem takeAnswer_delayCut : (takeAnswer n s).delayCut = s.delayCut := rfl
@[simp] theorem takeAnswer_params : (takeAnswer n s).params = s.params := rfl
@[simp] theorem takeAnswer_cfg : (takeAnswer n s).cfg = s.cfg := rfl
@[simp] theorem takeAnswer_bias : (takeAnswer n s).bias = s.bias := rfl
@[simp] theorem takeAnswer_wpPresent : (takeAnswer n s).wpPresent = s.wpPresent := rfl
@[simp] theorem takeAnswer_mode : (takeAnswer n s).mode = s.mode := rfl
@[simp] theorem takeAnswer_dar : (takeAnswer n s).dar = s.dar := rfl
@[simp] theorem takeAnswer_seq : (takeAnswer n s).seq = s.seq := rfl
@[simp] theorem takeAnswer_addrL : (takeAnswer n s).addrL = s.addrL := rfl
@[simp] theorem takeAnswer_lenL : (takeAnswer n s).lenL = s.lenL := rfl
@[simp] theorem takeAnswer_eps : (takeAnswer n s).eps = s.eps := rfl
@[simp] theorem takeAnswer_curOff : (takeAnswer n s).curOff = s.curOff := rfl
@[simp] theorem takeAnswer_bytesSent : (takeAnswer n s).bytesSent = s.bytesSent := rfl
@[simp] theorem takeAnswer_pg : (takeAnswer n s).pg = s.pg := rfl
@[simp] theorem takeAnswer_events : (takeAnswer n s).events = s.events := rfl
@[simp] theorem takeAnswer_rdat : (takeAnswer n s).rdat = s.rdat := rfl
@[simp] theorem takeAnswer_responses : (takeAnswer n s).responses = s.responses := rfl
@[simp] theorem takeAnswer_rspValid : (takeAnswer n s).rspValid = s.rspValid := rfl
@[simp] theorem takeAnswer_draws : (takeAnswer n s).draws = s.draws + (n - s.tr.length) := rfl
@[simp] theorem takeAnswer_base : (takeAnswer n s).base = s.base := rfl

/-! ### beginStep -/

@[simp] theorem beginStep_rst : (beginStep s).rst = s.rst := rfl
@[simp] theorem beginStep_cfgChip : (beginStep s).cfgChip = s.cfgChip := rfl
@[simp] theorem beginStep_cfgBias : (beginStep s).cfgBias = s.cfgBias := rfl
@[simp] theorem beginStep_cfgWpPresent : (beginStep s).cfgWpPresent = s.cfgWpPresent := rfl
@[simp] theorem beginStep_cmdIn : (beginStep s).cmdIn = s.cmdIn := rfl
@[simp] theorem beginStep_wd : (beginStep s).wd = s.wd := rfl
@[simp] theorem beginStep_tr : (beginStep s).tr = s.tr := rfl
@[simp] theorem beginStep_evReady : (beginStep s).evReady = s.evReady := rfl
@[simp] theorem beginStep_rstWithin : (beginStep s).rstWithin = s.rstWithin := rfl
@[simp] theorem beginStep_delayCut : (beginStep s).delayCut = s.delayCut := rfl
@[simp] theorem beginStep_params : (beginStep s).params = s.params := rfl
@[simp] theorem beginStep_cfg : (beginStep s).cfg = s.cfg := rfl
@[simp] theorem beginStep_bias : (beginStep s).bias = s.bias := rfl
@[simp] theorem beginStep_wpPresent : (beginStep s).wpPresent = s.wpPresent := rfl
@[simp] theorem beginStep_mode : (beginStep s).mode = s.mode := rfl
@[simp] theorem beginStep_dar : (beginStep s).dar = s.dar := rfl
@[simp] theorem beginStep_seq : (beginStep s).seq = s.seq := rfl
@[simp] theorem beginStep_addrL : (beginStep s).addrL = s.addrL := rfl
@[simp] theorem beginStep_lenL : (beginStep s).lenL = s.lenL := rfl
@[simp] theorem beginStep_eps : (beginStep s).eps = s.eps := rfl
@[simp] theorem beginStep_curOff : (beginStep s).curOff = s.curOff := rfl
@[simp] theorem beginStep_bytesSent : (beginStep s).bytesSent = s.bytesSent := rfl
@[simp] theorem beginStep_pg : (beginStep s).pg = s.pg := rfl
@[simp] theorem beginStep_events : (beginStep s).events = s.events := rfl
@[simp] theorem beginStep_rdat : (beginStep s).rdat = s.rdat := rfl
@[simp] theorem beginStep_responses : (beginStep s).responses = s.responses := rfl
@[simp] theorem beginStep_rspValid : (beginStep s).rspValid = false := rfl
@[simp] theorem beginStep_draws : (beginStep s).draws = s.draws := rfl
@[simp] theorem beginStep_base : (beginStep s).base = s.base := rfl

/-! ### countPage -/

@[simp] theorem countPage_rst : (countPage s).rst = s.rst := rfl
@[simp] theorem countPage_cfgChip : (countPage s).cfgChip = s.cfgChip := rfl
@[simp] theorem countPage_cfgBias : (countPage s).cfgBias = s.cfgBias := rfl
@[simp] theorem countPage_cfgWpPresent : (countPage s).cfgWpPresent = s.cfgWpPresent := rfl
@[simp] theorem countPage_cmdIn : (countPage s).cmdIn = s.cmdIn := rfl
@[simp] theorem countPage_wd : (countPage s).wd = s.wd := rfl
@[simp] theorem countPage_tr : (countPage s).tr = s.tr := rfl
@[simp] theorem countPage_evReady : (countPage s).evReady = s.evReady := rfl
@[simp] theorem countPage_rstWithin : (countPage s).rstWithin = s.rstWithin := rfl
@[simp] theorem countPage_delayCut : (countPage s).delayCut = s.delayCut := rfl
@[simp] theorem countPage_params : (countPage s).params = s.params := rfl
@[simp] theorem countPage_cfg : (countPage s).cfg = s.cfg := rfl
@[simp] theorem countPage_bias : (countPage s).bias = s.bias := rfl
@[simp] theorem countPage_wpPresent : (countPage s).wpPresent = s.wpPresent := rfl
@[simp] theorem countPage_mode : (countPage s).mode = s.mode := rfl
@[simp] theorem countPage_dar : (countPage s).dar = s.dar := rfl
@[simp] theorem countPage_seq : (countPage s).seq = s.seq := rfl
@[simp] theorem countPage_addrL : (countPage s).addrL = s.addrL := rfl
@[simp] theorem countPage_lenL : (countPage s).lenL = s.lenL := rfl
@[simp] theorem countPage_eps : (countPage s).eps = s.eps := rfl
@[simp] theorem countPage_curOff : (countPage s).curOff = s.curOff := rfl
@[simp] theorem countPage_bytesSent : (countPage s).bytesSent = s.bytesSent := rfl
@[simp] theorem countPage_pg : (countPage s).pg = BitVec.ofNat 17 (s.pg.toNat - 1) := rfl
@[simp] theorem countPage_events : (countPage s).events = s.events := rfl
@[simp] theorem countPage_rdat : (countPage s).rdat = s.rdat := rfl
@[simp] theorem countPage_responses : (countPage s).responses = s.responses := rfl
@[simp] theorem countPage_rspValid : (countPage s).rspValid = s.rspValid := rfl
@[simp] theorem countPage_draws : (countPage s).draws = s.draws := rfl
@[simp] theorem countPage_base : (countPage s).base = s.base := rfl

/-! ### noteReturned -/

@[simp] theorem noteReturned_rst : (noteReturned s).rst = s.rst := rfl
@[simp] theorem noteReturned_cfgChip : (noteReturned s).cfgChip = s.cfgChip := rfl
@[simp] theorem noteReturned_cfgBias : (noteReturned s).cfgBias = s.cfgBias := rfl
@[simp] theorem noteReturned_cfgWpPresent : (noteReturned s).cfgWpPresent = s.cfgWpPresent := rfl
@[simp] theorem noteReturned_cmdIn : (noteReturned s).cmdIn = s.cmdIn := rfl
@[simp] theorem noteReturned_wd : (noteReturned s).wd = s.wd := rfl
@[simp] theorem noteReturned_tr : (noteReturned s).tr = s.tr := rfl
@[simp] theorem noteReturned_evReady : (noteReturned s).evReady = s.evReady := rfl
@[simp] theorem noteReturned_rstWithin : (noteReturned s).rstWithin = s.rstWithin := rfl
@[simp] theorem noteReturned_delayCut : (noteReturned s).delayCut = false := rfl
@[simp] theorem noteReturned_params : (noteReturned s).params = s.params := rfl
@[simp] theorem noteReturned_cfg : (noteReturned s).cfg = s.cfg := rfl
@[simp] theorem noteReturned_bias : (noteReturned s).bias = s.bias := rfl
@[simp] theorem noteReturned_wpPresent : (noteReturned s).wpPresent = s.wpPresent := rfl
@[simp] theorem noteReturned_mode : (noteReturned s).mode = s.mode := rfl
@[simp] theorem noteReturned_dar : (noteReturned s).dar = s.dar := rfl
@[simp] theorem noteReturned_seq : (noteReturned s).seq = s.seq := rfl
@[simp] theorem noteReturned_addrL : (noteReturned s).addrL = s.addrL := rfl
@[simp] theorem noteReturned_lenL : (noteReturned s).lenL = s.lenL := rfl
@[simp] theorem noteReturned_eps : (noteReturned s).eps = s.eps := rfl
@[simp] theorem noteReturned_curOff : (noteReturned s).curOff = s.curOff := rfl
@[simp] theorem noteReturned_bytesSent : (noteReturned s).bytesSent = s.bytesSent := rfl
@[simp] theorem noteReturned_pg : (noteReturned s).pg = s.pg := rfl
@[simp] theorem noteReturned_events : (noteReturned s).events = s.events := rfl
@[simp] theorem noteReturned_rdat : (noteReturned s).rdat = s.rdat := rfl
@[simp] theorem noteReturned_responses : (noteReturned s).responses = s.responses := rfl
@[simp] theorem noteReturned_rspValid : (noteReturned s).rspValid = s.rspValid := rfl
@[simp] theorem noteReturned_draws : (noteReturned s).draws = s.draws := rfl
@[simp] theorem noteReturned_base : (noteReturned s).base = s.base := rfl

/-! ### advancePage -/

@[simp] theorem advancePage_rst : (advancePage n s).rst = s.rst := rfl
@[simp] theorem advancePage_cfgChip : (advancePage n s).cfgChip = s.cfgChip := rfl
@[simp] theorem advancePage_cfgBias : (advancePage n s).cfgBias = s.cfgBias := rfl
@[simp] theorem advancePage_cfgWpPresent : (advancePage n s).cfgWpPresent = s.cfgWpPresent := rfl
@[simp] theorem advancePage_cmdIn : (advancePage n s).cmdIn = s.cmdIn := rfl
@[simp] theorem advancePage_wd : (advancePage n s).wd = s.wd := rfl
@[simp] theorem advancePage_tr : (advancePage n s).tr = s.tr := rfl
@[simp] theorem advancePage_evReady : (advancePage n s).evReady = s.evReady := rfl
@[simp] theorem advancePage_rstWithin : (advancePage n s).rstWithin = s.rstWithin := rfl
@[simp] theorem advancePage_delayCut : (advancePage n s).delayCut = s.delayCut := rfl
@[simp] theorem advancePage_params : (advancePage n s).params = s.params := rfl
@[simp] theorem advancePage_cfg : (advancePage n s).cfg = s.cfg := rfl
@[simp] theorem advancePage_bias : (advancePage n s).bias = s.bias := rfl
@[simp] theorem advancePage_wpPresent : (advancePage n s).wpPresent = s.wpPresent := rfl
@[simp] theorem advancePage_mode : (advancePage n s).mode = s.mode := rfl
@[simp] theorem advancePage_dar : (advancePage n s).dar = s.dar := rfl
@[simp] theorem advancePage_seq : (advancePage n s).seq = .wDly := rfl
@[simp] theorem advancePage_addrL : (advancePage n s).addrL = s.addrL := rfl
@[simp] theorem advancePage_lenL : (advancePage n s).lenL = s.lenL := rfl
@[simp] theorem advancePage_eps : (advancePage n s).eps = s.eps := rfl
@[simp] theorem advancePage_curOff : (advancePage n s).curOff = 0#8 := rfl
@[simp] theorem advancePage_bytesSent : (advancePage n s).bytesSent = BitVec.ofNat 17 (s.bytesSent.toNat + n) := rfl
@[simp] theorem advancePage_pg : (advancePage n s).pg = s.pg := rfl
@[simp] theorem advancePage_events : (advancePage n s).events = s.events := rfl
@[simp] theorem advancePage_rdat : (advancePage n s).rdat = s.rdat := rfl
@[simp] theorem advancePage_responses : (advancePage n s).responses = s.responses := rfl
@[simp] theorem advancePage_rspValid : (advancePage n s).rspValid = s.rspValid := rfl
@[simp] theorem advancePage_draws : (advancePage n s).draws = s.draws := rfl
@[simp] theorem advancePage_base : (advancePage n s).base = s.base := rfl

/-! ### latchWrite -/

@[simp] theorem latchWrite_rst : (latchWrite addr len s).rst = s.rst := rfl
@[simp] theorem latchWrite_cfgChip : (latchWrite addr len s).cfgChip = s.cfgChip := rfl
@[simp] theorem latchWrite_cfgBias : (latchWrite addr len s).cfgBias = s.cfgBias := rfl
@[simp] theorem latchWrite_cfgWpPresent : (latchWrite addr len s).cfgWpPresent = s.cfgWpPresent := rfl
@[simp] theorem latchWrite_cmdIn : (latchWrite addr len s).cmdIn = s.cmdIn := rfl
@[simp] theorem latchWrite_wd : (latchWrite addr len s).wd = s.wd := rfl
@[simp] theorem latchWrite_tr : (latchWrite addr len s).tr = s.tr := rfl
@[simp] theorem latchWrite_evReady : (latchWrite addr len s).evReady = s.evReady := rfl
@[simp] theorem latchWrite_rstWithin : (latchWrite addr len s).rstWithin = s.rstWithin := rfl
@[simp] theorem latchWrite_delayCut : (latchWrite addr len s).delayCut = s.delayCut := rfl
@[simp] theorem latchWrite_params : (latchWrite addr len s).params = s.params := rfl
@[simp] theorem latchWrite_cfg : (latchWrite addr len s).cfg = s.cfg := rfl
@[simp] theorem latchWrite_bias : (latchWrite addr len s).bias = s.bias := rfl
@[simp] theorem latchWrite_wpPresent : (latchWrite addr len s).wpPresent = s.wpPresent := rfl
@[simp] theorem latchWrite_mode : (latchWrite addr len s).mode = s.mode := rfl
@[simp] theorem latchWrite_dar : (latchWrite addr len s).dar = s.dar := rfl
@[simp] theorem latchWrite_seq : (latchWrite addr len s).seq = s.seq := rfl
@[simp] theorem latchWrite_addrL : (latchWrite addr len s).addrL = addr := rfl
@[simp] theorem latchWrite_lenL : (latchWrite addr len s).lenL = len := rfl
@[simp] theorem latchWrite_eps : (latchWrite addr len s).eps = effectivePageSize s.params s.cfg len := rfl
@[simp] theorem latchWrite_curOff : (latchWrite addr len s).curOff =
      BitVec.ofNat 8 (pageOffset (effectivePageSize s.params s.cfg len).toNat addr.toNat) := rfl
@[simp] theorem latchWrite_bytesSent : (latchWrite addr len s).bytesSent = 0#17 := rfl
@[simp] theorem latchWrite_pg : (latchWrite addr len s).pg =
      BitVec.ofNat 17 (pageCount s.params.zeroLenWrite (effectivePageSize s.params s.cfg len).toNat
        (pageOffset (effectivePageSize s.params s.cfg len).toNat addr.toNat) len.toNat) := rfl
@[simp] theorem latchWrite_events : (latchWrite addr len s).events = s.events := rfl
@[simp] theorem latchWrite_rdat : (latchWrite addr len s).rdat = s.rdat := rfl
@[simp] theorem latchWrite_responses : (latchWrite addr len s).responses = s.responses := rfl
@[simp] theorem latchWrite_rspValid : (latchWrite addr len s).rspValid = s.rspValid := rfl
@[simp] theorem latchWrite_draws : (latchWrite addr len s).draws = s.draws := rfl
@[simp] theorem latchWrite_base : (latchWrite addr len s).base = s.base := rfl

/-! ### applyReset -/

@[simp] theorem applyReset_rst : (applyReset s).rst = s.rst := rfl
@[simp] theorem applyReset_cfgChip : (applyReset s).cfgChip = s.cfgChip := rfl
@[simp] theorem applyReset_cfgBias : (applyReset s).cfgBias = s.cfgBias := rfl
@[simp] theorem applyReset_cfgWpPresent : (applyReset s).cfgWpPresent = s.cfgWpPresent := rfl
@[simp] theorem applyReset_cmdIn : (applyReset s).cmdIn = s.cmdIn := rfl
@[simp] theorem applyReset_wd : (applyReset s).wd = s.wd := rfl
@[simp] theorem applyReset_tr : (applyReset s).tr = s.tr := rfl
@[simp] theorem applyReset_evReady : (applyReset s).evReady = s.evReady := rfl
@[simp] theorem applyReset_rstWithin : (applyReset s).rstWithin = s.rstWithin := rfl
@[simp] theorem applyReset_delayCut : (applyReset s).delayCut = s.delayCut := rfl
@[simp] theorem applyReset_params : (applyReset s).params = s.params := rfl
@[simp] theorem applyReset_cfg : (applyReset s).cfg = unpackChip s.cfgChip := rfl
@[simp] theorem applyReset_bias : (applyReset s).bias = s.cfgBias := rfl
@[simp] theorem applyReset_wpPresent : (applyReset s).wpPresent = s.cfgWpPresent := rfl
@[simp] theorem applyReset_mode : (applyReset s).mode = .uninit := rfl
@[simp] theorem applyReset_dar : (applyReset s).dar = s.params.baseAddr ||| s.cfgBias.setWidth 7 := rfl
@[simp] theorem applyReset_seq : (applyReset s).seq = .idle := rfl
@[simp] theorem applyReset_addrL : (applyReset s).addrL = 0#16 := rfl
@[simp] theorem applyReset_lenL : (applyReset s).lenL = 0#17 := rfl
@[simp] theorem applyReset_eps : (applyReset s).eps = 0#8 := rfl
@[simp] theorem applyReset_curOff : (applyReset s).curOff = 0#8 := rfl
@[simp] theorem applyReset_bytesSent : (applyReset s).bytesSent = 0#17 := rfl
@[simp] theorem applyReset_pg : (applyReset s).pg = 0#17 := rfl
@[simp] theorem applyReset_events : (applyReset s).events = s.events := rfl
@[simp] theorem applyReset_rdat : (applyReset s).rdat = s.rdat := rfl
@[simp] theorem applyReset_responses : (applyReset s).responses = s.responses := rfl
@[simp] theorem applyReset_rspValid : (applyReset s).rspValid = false := rfl
@[simp] theorem applyReset_draws : (applyReset s).draws = s.draws := rfl
@[simp] theorem applyReset_base : (applyReset s).base = s.params.baseAddr ||| s.cfgBias.setWidth 7 := rfl

/-! ### updateDA -/

@[simp] theorem updateDA_rst : (updateDA n s).rst = s.rst := by unfold updateDA; split <;> rfl
@[simp] theorem updateDA_cfgChip : (updateDA n s).cfgChip = s.cfgChip := by unfold updateDA; split <;> rfl
@[simp] theorem updateDA_cfgBias : (updateDA n s).cfgBias = s.cfgBias := by unfold updateDA; split <;> rfl
@[simp] theorem updateDA_cfgWpPresent : (updateDA n s).cfgWpPresent = s.cfgWpPresent := by unfold updateDA; split <;> rfl
@[simp] theorem updateDA_cmdIn : (updateDA n s).cmdIn = s.cmdIn := by unfold updateDA; split <;> rfl
@[simp] theorem updateDA_wd : (updateDA n s).wd = s.wd := by unfold updateDA; split <;> rfl
@[simp] theorem updateDA_tr : (updateDA n s).tr = s.tr := by unfold updateDA; split <;> rfl
@[simp] theorem updateDA_evReady : (updateDA n s).evReady = s.evReady := by unfold updateDA; split <;> rfl
@[simp] theorem updateDA_rstWithin : (updateDA n s).rstWithin = s.rstWithin := by unfold updateDA; split <;> rfl
@[simp] theorem updateDA_delayCut : (updateDA n s).delayCut = s.delayCut := by unfold updateDA; split <;> rfl
@[simp] theorem updateDA_params : (updateDA n s).params = s.params := by unfold updateDA; split <;> rfl
@[simp] theorem updateDA_cfg : (updateDA n s).cfg = s.cfg := by unfold updateDA; split <;> rfl
@[simp] theorem updateDA_bias : (updateDA n s).bias = s.bias := by unfold updateDA; split <;> rfl
@[simp] theorem updateDA_wpPresent : (updateDA n s).wpPresent = s.wpPresent := by unfold updateDA; split <;> rfl
@[simp] theorem updateDA_mode : (updateDA n s).mode = s.mode := by unfold updateDA; split <;> rfl
@[simp] theorem updateDA_seq : (updateDA n s).seq = s.seq := by unfold updateDA; split <;> rfl
@[simp] theorem updateDA_addrL : (updateDA n s).addrL = s.addrL := by unfold updateDA; split <;> rfl
@[simp] theorem updateDA_lenL : (updateDA n s).lenL = s.lenL := by unfold updateDA; split <;> rfl
@[simp] theorem updateDA_eps : (updateDA n s).eps = s.eps := by unfold updateDA; split <;> rfl
@[simp] theorem updateDA_curOff : (updateDA n s).curOff = s.curOff := by unfold updateDA; split <;> rfl
@[simp] theorem updateDA_bytesSent : (updateDA n s).bytesSent = s.bytesSent := by unfold updateDA; split <;> rfl
@[simp] theorem updateDA_pg : (updateDA n s).pg = s.pg := by unfold updateDA; split <;> rfl
@[simp] theorem updateDA_rdat : (updateDA n s).rdat = s.rdat := by unfold updateDA; split <;> rfl
@[simp] theorem updateDA_responses : (updateDA n s).responses = s.responses := by unfold updateDA; split <;> rfl
@[simp] theorem updateDA_rspValid : (updateDA n s).rspValid = s.rspValid := by unfold updateDA; split <;> rfl
@[simp] theorem updateDA_draws : (updateDA n s).draws = s.draws := by unfold updateDA; split <;> rfl
@[simp] theorem updateDA_base : (updateDA n s).base = s.base := by unfold updateDA; split <;> rfl

/-- `UpdateDA` writes `dar` exactly when there are overflow bits (41_address_encoder.md R99). -/
@[simp] theorem updateDA_dar : (updateDA n s).dar = updatedDar s.cfg s.base s.dar n := by
  unfold updateDA updatedDar; split <;> rfl

/-- `UpdateDA` emits one SEL exactly when there are overflow bits (41_address_encoder.md R99). -/
@[simp] theorem updateDA_events : (updateDA n s).events = s.events ++ selectEvents s.cfg s.base n := by
  unfold updateDA selectEvents; split <;> simp

/-! ### selectEvents, updatedDar -/

/-- Without overflow bits nothing is selected (41_address_encoder.md R99). -/
theorem selectEvents_of_zero {c : Descriptor} (base : DevAddr) (a : Nat) (h : c.overflowBits = 0#2) :
    selectEvents c base a = [] := by
  simp [selectEvents, h]

/-- With overflow bits the synthesised address is selected (41_address_encoder.md R99). -/
theorem selectEvents_of_ne {c : Descriptor} (base : DevAddr) (a : Nat) (h : c.overflowBits ≠ 0#2) :
    selectEvents c base a = [.sel (synth base c.overflowBits a)] := by
  simp [selectEvents, h]

/-- The only event of `UpdateDA` is a SEL of the synthesised address (41_address_encoder.md R99). -/
theorem mem_selectEvents {c : Descriptor} {base : DevAddr} {a : Nat} {e : Event} (h : e ∈ selectEvents c base a) :
    c.overflowBits ≠ 0#2 ∧ e = .sel (synth base c.overflowBits a) := by
  unfold selectEvents at h
  split at h <;> simp_all

/-- Without overflow bits `dar` keeps its value (41_address_encoder.md R99). -/
theorem updatedDar_of_zero {c : Descriptor} (base dar : DevAddr) (a : Nat) (h : c.overflowBits = 0#2) :
    updatedDar c base dar a = dar := by
  simp [updatedDar, h]

/-- With overflow bits `dar` becomes the synthesised address (41_address_encoder.md R99). -/
theorem updatedDar_of_ne {c : Descriptor} (base dar : DevAddr) (a : Nat) (h : c.overflowBits ≠ 0#2) :
    updatedDar c base dar a = synth base c.overflowBits a := by
  simp [updatedDar, h]

end Sys2Proof.Machine
end

