-- ==== Sys2Proof/Laws/Ops.lean ====
section
/-!
SUPPORT. One lemma for each shared operation that says everything it can do; the proofs about instructions cite these.
-/

namespace Sys2Proof.Machine

/-- A guarded operation answers a next state exactly under a well-formed descriptor, and that state is the given one. -/
theorem whenWellFormed_eq_next {s t u : State} :
    whenWellFormed s t = .next u ↔ s.cfg.wellFormed = true ∧ t = u := by
  unfold whenWellFormed
  split <;> simp_all

/-- A guarded operation under a well-formed descriptor. -/
theorem whenWellFormed_of_wf {s : State} (t : State) (h : s.cfg.wellFormed = true) :
    whenWellFormed s t = .next t := by
  simp [whenWellFormed, h]

/-- A guarded operation under an ill-formed descriptor. -/
theorem whenWellFormed_of_ill {s : State} (t : State) (h : s.cfg.wellFormed = false) :
    whenWellFormed s t = .refused .illFormedDescriptor := by
  simp [whenWellFormed, h]

/-- A WRITE that passes its checks goes on exactly under a well-formed descriptor and with a page size of at least one
byte (42_write_splitter.md R113). -/
theorem whenPageSized_eq_next {len : Len} {s t u : State} :
    whenPageSized len s t = .next u
      ↔ s.cfg.wellFormed = true ∧ effectivePageSize s.params s.cfg len ≠ 0#8 ∧ t = u := by
  unfold whenPageSized
  split
  · rename_i h
    simp [h.2]
  · rename_i h
    rw [whenWellFormed_eq_next]
    constructor
    · exact fun hh => ⟨hh.1, fun he => h ⟨hh.1, he⟩, hh.2⟩
    · exact fun hh => ⟨hh.1, hh.2.2⟩

/-- A step that ends has the state its action gave. -/
theorem whenReturned_next {s t : State} {r : Host.Outcome State Fault Refusal} (h : whenReturned s r = .next t) :
    r = .next t := by
  unfold whenReturned at h
  split at h
  · split at h <;> simp_all
  · simp at h
  · simp at h

/-- With collaborators that return, waiting for them changes nothing. -/
theorem whenReturned_ready {s : State} (r : Host.Outcome State Fault Refusal) (h : s.evReady = true) :
    whenReturned s r = r := by
  cases r <;> simp [whenReturned, h]

/-- A step that ends had its data (70_reset_and_hazards.md R183). -/
theorem whenSupplied_next {s t : State} {r : Host.Outcome State Fault Refusal} (h : whenSupplied s r = .next t) :
    r = .next t ∧ ¬(s.cfg.wellFormed = true ∧ s.seq = .wPage ∧ s.wd.length < nextChunk s) := by
  unfold whenSupplied at h
  split at h
  · simp at h
  · rename_i hn
    exact ⟨h, hn⟩

/-- With its data there, waiting for it changes nothing. -/
theorem whenSupplied_of_data {s : State} (r : Host.Outcome State Fault Refusal)
    (h : s.seq = .wPage → nextChunk s ≤ s.wd.length) : whenSupplied s r = r :=
  if_neg fun hn => absurd hn.2.2 (Nat.not_lt.mpr (h hn.2.1))

/-- The checks pass exactly for an initialised block and a range inside the device (42_write_splitter.md R111). -/
theorem preflight_none {s : State} {addr : Addr} {len : Len} :
    preflight s addr len = none ↔ s.mode ≠ .uninit ∧ addr.toNat + len.toNat ≤ s.cfg.capacity.toNat := by
  unfold preflight
  split <;> simp_all

/-- The checks look at `mode` and `cap` only. -/
theorem preflight_congr {s t : State} (addr : Addr) (len : Len) (hm : s.mode = t.mode) (hc : s.cfg = t.cfg) :
    preflight s addr len = preflight t addr len := by
  simp [preflight, hm, hc]

/-- An answer has the length that was asked for (43_read.md R133). -/
@[simp] theorem transportAnswer_length (n : Nat) (s : State) : (transportAnswer n s).length = n := by
  simp [transportAnswer]; omega

/-- An answer depends on the script and the counter of free values only. -/
theorem transportAnswer_congr {s t : State} (n : Nat) (ht : s.tr = t.tr) (hd : s.draws = t.draws) :
    transportAnswer n s = transportAnswer n t := by
  simp [transportAnswer, ht, hd]

variable (a k : Nat) (n : BitVec 17) (ok : Bool) (byte : Byte) (s : State)

/-! ### issueRead, issueWrite, complete, completeByte, raiseFail: field by field -/

@[simp] theorem issueRead_dar : (issueRead a n s).dar = updatedDar s.cfg s.base s.dar a := updateDA_dar a s
@[simp] theorem issueRead_events : (issueRead a n s).events = s.events ++ selectEvents s.cfg s.base a ++
    [.rd (updatedDar s.cfg s.base s.dar a) s.cfg.addressWidth (regAddr s.cfg.addressWidth a) n] := by
  simp [issueRead]
@[simp] theorem issueRead_rst : (issueRead a n s).rst = s.rst := by simp [issueRead]
@[simp] theorem issueRead_cfgChip : (issueRead a n s).cfgChip = s.cfgChip := by simp [issueRead]
@[simp] theorem issueRead_cfgBias : (issueRead a n s).cfgBias = s.cfgBias := by simp [issueRead]
@[simp] theorem issueRead_cfgWpPresent : (issueRead a n s).cfgWpPresent = s.cfgWpPresent := by simp [issueRead]
@[simp] theorem issueRead_cmdIn : (issueRead a n s).cmdIn = s.cmdIn := by simp [issueRead]
@[simp] theorem issueRead_wd : (issueRead a n s).wd = s.wd := by simp [issueRead]
@[simp] theorem issueRead_tr : (issueRead a n s).tr = s.tr := by simp [issueRead]
@[simp] theorem issueRead_evReady : (issueRead a n s).evReady = s.evReady := by simp [issueRead]
@[simp] theorem issueRead_rstWithin : (issueRead a n s).rstWithin = s.rstWithin := by simp [issueRead]
@[simp] theorem issueRead_delayCut : (issueRead a n s).delayCut = s.delayCut := by simp [issueRead]
@[simp] theorem issueRead_params : (issueRead a n s).params = s.params := by simp [issueRead]
@[simp] theorem issueRead_cfg : (issueRead a n s).cfg = s.cfg := by simp [issueRead]
@[simp] theorem issueRead_bias : (issueRead a n s).bias = s.bias := by simp [issueRead]
@[simp] theorem issueRead_wpPresent : (issueRead a n s).wpPresent = s.wpPresent := by simp [issueRead]
@[simp] theorem issueRead_mode : (issueRead a n s).mode = s.mode := by simp [issueRead]
@[simp] theorem issueRead_seq : (issueRead a n s).seq = s.seq := by simp [issueRead]
@[simp] theorem issueRead_addrL : (issueRead a n s).addrL = s.addrL := by simp [issueRead]
@[simp] theorem issueRead_lenL : (issueRead a n s).lenL = s.lenL := by simp [issueRead]
@[simp] theorem issueRead_eps : (issueRead a n s).eps = s.eps := by simp [issueRead]
@[simp] theorem issueRead_curOff : (issueRead a n s).curOff = s.curOff := by simp [issueRead]
@[simp] theorem issueRead_bytesSent : (issueRead a n s).bytesSent = s.bytesSent := by simp [issueRead]
@[simp] theorem issueRead_pg : (issueRead a n s).pg = s.pg := by simp [issueRead]
@[simp] theorem issueRead_rdat : (issueRead a n s).rdat = s.rdat := by simp [issueRead]
@[simp] theorem issueRead_responses : (issueRead a n s).responses = s.responses := by simp [issueRead]
@[simp] theorem issueRead_rspValid : (issueRead a n s).rspValid = s.rspValid := by simp [issueRead]
@[simp] theorem issueRead_draws : (issueRead a n s).draws = s.draws := by simp [issueRead]
@[simp] theorem issueRead_base : (issueRead a n s).base = s.base := by simp [issueRead]

@[simp] theorem issueWrite_dar : (issueWrite a k s).dar = updatedDar s.cfg s.base s.dar a := updateDA_dar a s
@[simp] theorem issueWrite_events : (issueWrite a k s).events = s.events ++ selectEvents s.cfg s.base a ++
    [.wr (updatedDar s.cfg s.base s.dar a) s.cfg.addressWidth (regAddr s.cfg.addressWidth a) (BitVec.ofNat 17 k)
      (s.wd.take k)] := by
  simp [issueWrite]
@[simp] theorem issueWrite_wd : (issueWrite a k s).wd = s.wd.drop k := by simp [issueWrite]
@[simp] theorem issueWrite_rst : (issueWrite a k s).rst = s.rst := by simp [issueWrite]
@[simp] theorem issueWrite_cfgChip : (issueWrite a k s).cfgChip = s.cfgChip := by simp [issueWrite]
@[simp] theorem issueWrite_cfgBias : (issueWrite a k s).cfgBias = s.cfgBias := by simp [issueWrite]
@[simp] theorem issueWrite_cfgWpPresent : (issueWrite a k s).cfgWpPresent = s.cfgWpPresent := by simp [issueWrite]
@[simp] theorem issueWrite_cmdIn : (issueWrite a k s).cmdIn = s.cmdIn := by simp [issueWrite]
@[simp] theorem issueWrite_tr : (issueWrite a k s).tr = s.tr := by simp [issueWrite]
@[simp] theorem issueWrite_evReady : (issueWrite a k s).evReady = s.evReady := by simp [issueWrite]
@[simp] theorem issueWrite_rstWithin : (issueWrite a k s).rstWithin = s.rstWithin := by simp [issueWrite]
@[simp] theorem issueWrite_delayCut : (issueWrite a k s).delayCut = s.delayCut := by simp [issueWrite]
@[simp] theorem issueWrite_params : (issueWrite a k s).params = s.params := by simp [issueWrite]
@[simp] theorem issueWrite_cfg : (issueWrite a k s).cfg = s.cfg := by simp [issueWrite]
@[simp] theorem issueWrite_bias : (issueWrite a k s).bias = s.bias := by simp [issueWrite]
@[simp] theorem issueWrite_wpPresent : (issueWrite a k s).wpPresent = s.wpPresent := by simp [issueWrite]
@[simp] theorem issueWrite_mode : (issueWrite a k s).mode = s.mode := by simp [issueWrite]
@[simp] theorem issueWrite_seq : (issueWrite a k s).seq = s.seq := by simp [issueWrite]
@[simp] theorem issueWrite_addrL : (issueWrite a k s).addrL = s.addrL := by simp [issueWrite]
@[simp] theorem issueWrite_lenL : (issueWrite a k s).lenL = s.lenL := by simp [issueWrite]
@[simp] theorem issueWrite_eps : (issueWrite a k s).eps = s.eps := by simp [issueWrite]
@[simp] theorem issueWrite_curOff : (issueWrite a k s).curOff = s.curOff := by simp [issueWrite]
@[simp] theorem issueWrite_bytesSent : (issueWrite a k s).bytesSent = s.bytesSent := by simp [issueWrite]
@[simp] theorem issueWrite_pg : (issueWrite a k s).pg = s.pg := by simp [issueWrite]
@[simp] theorem issueWrite_rdat : (issueWrite a k s).rdat = s.rdat := by simp [issueWrite]
@[simp] theorem issueWrite_responses : (issueWrite a k s).responses = s.responses := by simp [issueWrite]
@[simp] theorem issueWrite_rspValid : (issueWrite a k s).rspValid = s.rspValid := by simp [issueWrite]
@[simp] theorem issueWrite_draws : (issueWrite a k s).draws = s.draws := by simp [issueWrite]
@[simp] theorem issueWrite_base : (issueWrite a k s).base = s.base := by simp [issueWrite]

@[simp] theorem complete_rst : (complete ok s).rst = s.rst := rfl
@[simp] theorem complete_cfgChip : (complete ok s).cfgChip = s.cfgChip := rfl
@[simp] theorem complete_cfgBias : (complete ok s).cfgBias = s.cfgBias := rfl
@[simp] theorem complete_cfgWpPresent : (complete ok s).cfgWpPresent = s.cfgWpPresent := rfl
@[simp] theorem complete_cmdIn : (complete ok s).cmdIn = s.cmdIn := rfl
@[simp] theorem complete_wd : (complete ok s).wd = s.wd := rfl
@[simp] theorem complete_tr : (complete ok s).tr = s.tr := rfl
@[simp] theorem complete_evReady : (complete ok s).evReady = s.evReady := rfl
@[simp] theorem complete_rstWithin : (complete ok s).rstWithin = s.rstWithin := rfl
@[simp] theorem complete_delayCut : (complete ok s).delayCut = s.delayCut := rfl
@[simp] theorem complete_params : (complete ok s).params = s.params := rfl
@[simp] theorem complete_cfg : (complete ok s).cfg = s.cfg := rfl
@[simp] theorem complete_bias : (complete ok s).bias = s.bias := rfl
@[simp] theorem complete_wpPresent : (complete ok s).wpPresent = s.wpPresent := rfl
@[simp] theorem complete_mode : (complete ok s).mode = s.mode := rfl
@[simp] theorem complete_dar : (complete ok s).dar = s.dar := rfl
@[simp] theorem complete_seq : (complete ok s).seq = s.seq := rfl
@[simp] theorem complete_addrL : (complete ok s).addrL = s.addrL := rfl
@[simp] theorem complete_lenL : (complete ok s).lenL = s.lenL := rfl
@[simp] theorem complete_eps : (complete ok s).eps = s.eps := rfl
@[simp] theorem complete_curOff : (complete ok s).curOff = s.curOff := rfl
@[simp] theorem complete_bytesSent : (complete ok s).bytesSent = s.bytesSent := rfl
@[simp] theorem complete_pg : (complete ok s).pg = s.pg := rfl
@[simp] theorem complete_events : (complete ok s).events = s.events := rfl
@[simp] theorem complete_rdat : (complete ok s).rdat = s.rdat := rfl
@[simp] theorem complete_rspValid : (complete ok s).rspValid = true := rfl
@[simp] theorem complete_draws : (complete ok s).draws = s.draws + 1 := rfl
@[simp] theorem complete_base : (complete ok s).base = s.base := rfl

@[simp] theorem completeByte_rst : (completeByte byte s).rst = s.rst := rfl
@[simp] theorem completeByte_cfgChip : (completeByte byte s).cfgChip = s.cfgChip := rfl
@[simp] theorem completeByte_cfgBias : (completeByte byte s).cfgBias = s.cfgBias := rfl
@[simp] theorem completeByte_cfgWpPresent : (completeByte byte s).cfgWpPresent = s.cfgWpPresent := rfl
@[simp] theorem completeByte_cmdIn : (completeByte byte s).cmdIn = s.cmdIn := rfl
@[simp] theorem completeByte_wd : (completeByte byte s).wd = s.wd := rfl
@[simp] theorem completeByte_tr : (completeByte byte s).tr = s.tr := rfl
@[simp] theorem completeByte_evReady : (completeByte byte s).evReady = s.evReady := rfl
@[simp] theorem completeByte_rstWithin : (completeByte byte s).rstWithin = s.rstWithin := rfl
@[simp] theorem completeByte_delayCut : (completeByte byte s).delayCut = s.delayCut := rfl
@[simp] theorem completeByte_params : (completeByte byte s).params = s.params := rfl
@[simp] theorem completeByte_cfg : (completeByte byte s).cfg = s.cfg := rfl
@[simp] theorem completeByte_bias : (completeByte byte s).bias = s.bias := rfl
@[simp] theorem completeByte_wpPresent : (completeByte byte s).wpPresent = s.wpPresent := rfl
@[simp] theorem completeByte_mode : (completeByte byte s).mode = s.mode := rfl
@[simp] theorem completeByte_dar : (completeByte byte s).dar = s.dar := rfl
@[simp] theorem completeByte_seq : (completeByte byte s).seq = s.seq := rfl
@[simp] theorem completeByte_addrL : (completeByte byte s).addrL = s.addrL := rfl
@[simp] theorem completeByte_lenL : (completeByte byte s).lenL = s.lenL := rfl
@[simp] theorem completeByte_eps : (completeByte byte s).eps = s.eps := rfl
@[simp] theorem completeByte_curOff : (completeByte byte s).curOff = s.curOff := rfl
@[simp] theorem completeByte_bytesSent : (completeByte byte s).bytesSent = s.bytesSent := rfl
@[simp] theorem completeByte_pg : (completeByte byte s).pg = s.pg := rfl
@[simp] theorem completeByte_events : (completeByte byte s).events = s.events := rfl
@[simp] theorem completeByte_rdat : (completeByte byte s).rdat = s.rdat := rfl
@[simp] theorem completeByte_rspValid : (completeByte byte s).rspValid = true := rfl
@[simp] theorem completeByte_draws : (completeByte byte s).draws = s.draws + 1 := rfl
@[simp] theorem completeByte_base : (completeByte byte s).base = s.base := rfl
@[simp] theorem complete_responses :
    (complete ok s).responses = s.responses ++ [{ ok := ok, byte := Config.freeByte s.draws }] := rfl
@[simp] theorem completeByte_responses :
    (completeByte byte s).responses = s.responses ++ [{ ok := Config.freeBit s.draws, byte := byte }] := rfl
/-- A failure is a completion with `ok = 0`, whatever its reason (60_exceptions.md R150). -/
@[simp] theorem raiseFail_eq (r : FailReason) : raiseFail r s = complete false s := rfl

/-! ### delayPage: field by field -/

@[simp] theorem delayPage_rst : (delayPage s).rst = s.rst := rfl
@[simp] theorem delayPage_cfgChip : (delayPage s).cfgChip = s.cfgChip := rfl
@[simp] theorem delayPage_cfgBias : (delayPage s).cfgBias = s.cfgBias := rfl
@[simp] theorem delayPage_cfgWpPresent : (delayPage s).cfgWpPresent = s.cfgWpPresent := rfl
@[simp] theorem delayPage_cmdIn : (delayPage s).cmdIn = s.cmdIn := rfl
@[simp] theorem delayPage_wd : (delayPage s).wd = s.wd := rfl
@[simp] theorem delayPage_tr : (delayPage s).tr = s.tr := rfl
@[simp] theorem delayPage_evReady : (delayPage s).evReady = s.evReady := rfl
@[simp] theorem delayPage_rstWithin : (delayPage s).rstWithin = s.rstWithin := rfl
@[simp] theorem delayPage_delayCut : (delayPage s).delayCut = false := rfl
@[simp] theorem delayPage_params : (delayPage s).params = s.params := rfl
@[simp] theorem delayPage_cfg : (delayPage s).cfg = s.cfg := rfl
@[simp] theorem delayPage_bias : (delayPage s).bias = s.bias := rfl
@[simp] theorem delayPage_wpPresent : (delayPage s).wpPresent = s.wpPresent := rfl
@[simp] theorem delayPage_mode : (delayPage s).mode = s.mode := rfl
@[simp] theorem delayPage_dar : (delayPage s).dar = s.dar := rfl
@[simp] theorem delayPage_seq : (delayPage s).seq = s.seq := rfl
@[simp] theorem delayPage_addrL : (delayPage s).addrL = s.addrL := rfl
@[simp] theorem delayPage_lenL : (delayPage s).lenL = s.lenL := rfl
@[simp] theorem delayPage_eps : (delayPage s).eps = s.eps := rfl
@[simp] theorem delayPage_curOff : (delayPage s).curOff = s.curOff := rfl
@[simp] theorem delayPage_bytesSent : (delayPage s).bytesSent = s.bytesSent := rfl
@[simp] theorem delayPage_pg : (delayPage s).pg = BitVec.ofNat 17 (s.pg.toNat - 1) := rfl
@[simp] theorem delayPage_events : (delayPage s).events = s.events ++ [.dly s.params.tWcMs] := rfl
@[simp] theorem delayPage_rdat : (delayPage s).rdat = s.rdat := rfl
@[simp] theorem delayPage_responses : (delayPage s).responses = s.responses := rfl
@[simp] theorem delayPage_rspValid : (delayPage s).rspValid = s.rspValid := rfl
@[simp] theorem delayPage_draws : (delayPage s).draws = s.draws := rfl
@[simp] theorem delayPage_base : (delayPage s).base = s.base := rfl

end Sys2Proof.Machine
end

