-- ==== Sys2Proof/Laws/Abandon.lean ====
section
/-!
SUPPORT. What a reset inside a step leaves, field by field, and when there is none.
-/

namespace Sys2Proof.Machine

variable (moved : Nat) (answer : List Byte) (e : Option Event) (p : ResetPoint) (s t : State)

/-! ### moveOutstanding: only the streams, the counter of free values and the note of a cut delay -/

@[simp] theorem moveOutstanding_rst : (moveOutstanding moved answer e s).rst = s.rst := by
  unfold moveOutstanding; split <;> rfl
@[simp] theorem moveOutstanding_rstWithin : (moveOutstanding moved answer e s).rstWithin = s.rstWithin := by
  unfold moveOutstanding; split <;> rfl
@[simp] theorem moveOutstanding_cfgChip : (moveOutstanding moved answer e s).cfgChip = s.cfgChip := by
  unfold moveOutstanding; split <;> rfl
@[simp] theorem moveOutstanding_cfgBias : (moveOutstanding moved answer e s).cfgBias = s.cfgBias := by
  unfold moveOutstanding; split <;> rfl
@[simp] theorem moveOutstanding_cfgWpPresent : (moveOutstanding moved answer e s).cfgWpPresent = s.cfgWpPresent := by
  unfold moveOutstanding; split <;> rfl
@[simp] theorem moveOutstanding_cmdIn : (moveOutstanding moved answer e s).cmdIn = s.cmdIn := by
  unfold moveOutstanding; split <;> rfl
@[simp] theorem moveOutstanding_evReady : (moveOutstanding moved answer e s).evReady = s.evReady := by
  unfold moveOutstanding; split <;> rfl
@[simp] theorem moveOutstanding_params : (moveOutstanding moved answer e s).params = s.params := by
  unfold moveOutstanding; split <;> rfl
@[simp] theorem moveOutstanding_events : (moveOutstanding moved answer e s).events = s.events := by
  unfold moveOutstanding; split <;> rfl
@[simp] theorem moveOutstanding_responses : (moveOutstanding moved answer e s).responses = s.responses := by
  unfold moveOutstanding; split <;> rfl
/-- Delivered bytes are only appended. -/
theorem moveOutstanding_rdat : ∃ bytes, (moveOutstanding moved answer e s).rdat = s.rdat ++ bytes := by
  unfold moveOutstanding
  split
  case h_2 => exact ⟨_, rfl⟩
  all_goals exact ⟨[], (List.append_nil _).symm⟩

/-! ### cutLast -/

/-- A cut changes no number of events. -/
@[simp] theorem cutLast_length (es : List Event) : (cutLast moved es).length = es.length := by
  induction es using cutLast.induct with
  | case1 => rfl
  | case2 => rfl
  | case3 e e' es ih => simp only [cutLast, List.length_cons, ih]

/-- An event of a cut list is one of the list, or the cut of one. -/
theorem mem_cutLast {moved : Nat} {es : List Event} {e : Event} (h : e ∈ cutLast moved es) :
    e ∈ es ∨ ∃ e' ∈ es, e = cutEvent moved e' := by
  induction es using cutLast.induct with
  | case1 => exact .inl h
  | case2 x => exact .inr ⟨x, List.mem_cons_self, by simpa [cutLast] using h⟩
  | case3 x y es ih =>
    simp only [cutLast] at h
    rcases List.mem_cons.mp h with rfl | h
    · exact .inl List.mem_cons_self
    · rcases ih h with h | ⟨e', h, he⟩
      · exact .inl (List.mem_cons_of_mem _ h)
      · exact .inr ⟨e', List.mem_cons_of_mem _ h, he⟩

/-- The last event of a cut list is the cut of the last event. -/
theorem cutLast_getLast? (es : List Event) : (cutLast moved es).getLast? = es.getLast?.map (cutEvent moved) := by
  induction es using cutLast.induct with
  | case1 => rfl
  | case2 => rfl
  | case3 e e' es ih =>
    simp only [cutLast]
    rw [List.getLast?_cons, List.getLast?_cons (l := e' :: es), ih]
    cases h : (e' :: es).getLast? with
    | none => simp at h
    | some x => simp

/-- The events before the last stand as they are. -/
theorem cutLast_getElem? {es : List Event} {k : Nat} (h : k + 1 < es.length) : (cutLast moved es)[k]? = es[k]? := by
  induction es using cutLast.induct generalizing k with
  | case1 => rfl
  | case2 => simp at h
  | case3 e e' es ih =>
    simp only [cutLast]
    cases k with
    | zero => rfl
    | succ k => exact ih (by simpa using h)

/-- What was emitted is part of what the whole step emits. -/
theorem mem_emittedAt {p : ResetPoint} {s t : State} {e : Event} (h : e ∈ emittedAt p s t) : e ∈ stepEvents s t :=
  List.mem_of_mem_take h

/-- The events of a step that only appends. -/
theorem stepEvents_of_append {s t : State} {es : List Event} (h : t.events = s.events ++ es) : stepEvents s t = es := by
  rw [stepEvents, h, List.drop_left]

/-! ### abandon: field by field -/

@[simp] theorem abandon_rst : (abandon p s t).rst = s.rst := by simp [abandon]
@[simp] theorem abandon_rstWithin : (abandon p s t).rstWithin = none := by simp [abandon]
@[simp] theorem abandon_cfgChip : (abandon p s t).cfgChip = s.cfgChip := by simp [abandon]
@[simp] theorem abandon_cfgBias : (abandon p s t).cfgBias = s.cfgBias := by simp [abandon]
@[simp] theorem abandon_cfgWpPresent : (abandon p s t).cfgWpPresent = s.cfgWpPresent := by simp [abandon]
@[simp] theorem abandon_cmdIn : (abandon p s t).cmdIn = t.cmdIn := by simp [abandon]
@[simp] theorem abandon_evReady : (abandon p s t).evReady = s.evReady := by simp [abandon]
@[simp] theorem abandon_params : (abandon p s t).params = s.params := by simp [abandon]
@[simp] theorem abandon_cfg : (abandon p s t).cfg = unpackChip s.cfgChip := by simp [abandon]
@[simp] theorem abandon_bias : (abandon p s t).bias = s.cfgBias := by simp [abandon]
@[simp] theorem abandon_wpPresent : (abandon p s t).wpPresent = s.cfgWpPresent := by simp [abandon]
@[simp] theorem abandon_mode : (abandon p s t).mode = .uninit := by simp [abandon]
@[simp] theorem abandon_dar : (abandon p s t).dar = s.params.baseAddr ||| s.cfgBias.setWidth 7 := by simp [abandon]
@[simp] theorem abandon_base : (abandon p s t).base = s.params.baseAddr ||| s.cfgBias.setWidth 7 := by simp [abandon]
@[simp] theorem abandon_seq : (abandon p s t).seq = .idle := by simp [abandon]
@[simp] theorem abandon_addrL : (abandon p s t).addrL = 0#16 := by simp [abandon]
@[simp] theorem abandon_lenL : (abandon p s t).lenL = 0#17 := by simp [abandon]
@[simp] theorem abandon_eps : (abandon p s t).eps = 0#8 := by simp [abandon]
@[simp] theorem abandon_curOff : (abandon p s t).curOff = 0#8 := by simp [abandon]
@[simp] theorem abandon_bytesSent : (abandon p s t).bytesSent = 0#17 := by simp [abandon]
@[simp] theorem abandon_pg : (abandon p s t).pg = 0#17 := by simp [abandon]
@[simp] theorem abandon_events : (abandon p s t).events = s.events ++ cutLast p.moved (emittedAt p s t) := by simp [abandon]
@[simp] theorem abandon_responses : (abandon p s t).responses = s.responses := by simp [abandon]
@[simp] theorem abandon_rspValid : (abandon p s t).rspValid = false := by simp [abandon]
/-- Delivered bytes are only appended. -/
theorem abandon_rdat : ∃ bytes, (abandon p s t).rdat = s.rdat ++ bytes := by
  simp only [abandon, applyReset_rdat]
  exact moveOutstanding_rdat ..

/-! ### resetWithin -/

/-- A reset falls inside a step exactly at a point the step reaches. -/
theorem resetWithin_eq_some {s u : State} :
    resetWithin s = some u ↔ ∃ p t, s.rstWithin = some p ∧ advance (beginStep s) = .next t ∧ reaches p s t = true
      ∧ u = abandon p s t := by
  unfold resetWithin
  generalize advance (beginStep s) = r
  cases s.rstWithin with
  | none => simp
  | some p =>
    cases r with
    | next t =>
      constructor
      · intro h
        obtain ⟨hr, hu⟩ := Option.ite_none_right_eq_some.mp h
        exact ⟨p, t, rfl, rfl, hr, (Option.some.inj hu).symm⟩
      · rintro ⟨_, _, ⟨⟩, ⟨⟩, hr, rfl⟩
        exact if_pos hr
    | fault f => simp
    | refused q => simp

/-- With none coming, no reset falls inside a step. -/
theorem resetWithin_of_none {s : State} (h : s.rstWithin = none) : resetWithin s = none := by
  simp [resetWithin, h]

end Sys2Proof.Machine
end

