-- ==== Sys2Proof/Laws/Decode.lean ====
section
/-!
SUPPORT. The fields of a packed command word, and which words the decoder rejects.
-/

namespace Sys2Proof

/-- Each bit of a packed command word comes from one field (30_encoding.md R70). -/
theorem getLsbD_packCommand (op : BitVec 3) (len : Len) (addr : Addr) {i : Nat} (hi : i < 36) :
    (packCommand op len addr).getLsbD i =
      if i < 16 then addr.getLsbD i else if i < 33 then len.getLsbD (i - 16) else op.getLsbD (i - 33) := by
  simp only [packCommand, BitVec.getLsbD_or, BitVec.getLsbD_shiftLeft, BitVec.getLsbD_setWidth]
  split
  · rename_i h
    have h1 : i < 33 := by omega
    simp [h, h1, hi]
  · rename_i h
    have ha : addr.getLsbD i = false := BitVec.getLsbD_of_ge _ _ (by omega)
    split
    · rename_i h2
      have h3 : i - 16 < 36 := by omega
      simp [h, h2, hi, ha, h3]
    · rename_i h2
      have hl : len.getLsbD (i - 16) = false := BitVec.getLsbD_of_ge _ _ (by omega)
      have h3 : i - 33 < 36 := by omega
      simp [h2, hi, ha, hl, h3]

/-- The operation code of a packed word (30_encoding.md R70). -/
theorem opField_packCommand (op : BitVec 3) (len : Len) (addr : Addr) :
    opField (packCommand op len addr) = op := by
  apply BitVec.eq_of_getLsbD_eq
  intro i hi
  have h1 : ¬33 + i < 16 := by omega
  have h2 : ¬33 + i < 33 := by omega
  simp [opField, hi, getLsbD_packCommand op len addr (show 33 + i < 36 by omega), h1, h2]

/-- The length of a packed word (30_encoding.md R70). -/
theorem lenField_packCommand (op : BitVec 3) (len : Len) (addr : Addr) :
    lenField (packCommand op len addr) = len := by
  apply BitVec.eq_of_getLsbD_eq
  intro i hi
  have h1 : ¬16 + i < 16 := by omega
  have h2 : 16 + i < 33 := by omega
  simp [lenField, hi, getLsbD_packCommand op len addr (show 16 + i < 36 by omega), h1, h2]

/-- The address of a packed word (30_encoding.md R70). -/
theorem addrField_packCommand (op : BitVec 3) (len : Len) (addr : Addr) :
    addrField (packCommand op len addr) = addr := by
  apply BitVec.eq_of_getLsbD_eq
  intro i hi
  simp [addrField, hi, getLsbD_packCommand op len addr (show i < 36 by omega)]

/-- The decoder rejects a word exactly when its operation code is 6 or 7 (30_encoding.md R74). -/
theorem decode_eq_error {w : CmdWord} {e : DecodeError} :
    decode w = .error e ↔ (opField w = 6#3 ∨ opField w = 7#3) ∧ e = .reservedOp (opField w) := by
  unfold decode
  generalize opField w = op
  have : op = 0#3 ∨ op = 1#3 ∨ op = 2#3 ∨ op = 3#3 ∨ op = 4#3 ∨ op = 5#3 ∨ op = 6#3 ∨ op = 7#3 := by
    revert op; decide
  rcases this with rfl | rfl | rfl | rfl | rfl | rfl | rfl | rfl <;> simp [eq_comm]

end Sys2Proof
end

