-- ==== Sys2Proof/Laws/Encoder.lean ====
section
/-!
SUPPORT. The address encoder as arithmetic and bit by bit.
-/

namespace Sys2Proof.Machine

/-- There are four values of `ob`. -/
theorem overflowBits_cases (ob : BitVec 2) : ob = 0#2 ∨ ob = 1#2 ∨ ob = 2#2 ∨ ob = 3#2 := by
  revert ob; decide

/-- Bit `k` of the overflow mask is set exactly below `ob` (41_address_encoder.md R96). -/
theorem getLsbD_overflowMask (ob : BitVec 2) {k : Nat} (hk : k < 7) :
    (overflowMask ob).getLsbD k = decide (k < ob.toNat) := by
  have key : ∀ (o : BitVec 2) (j : Fin 7), (overflowMask o).getLsbD j = decide (j.val < o.toNat) := by decide
  exact key ob ⟨k, hk⟩

/-- The mask keeps what lies below `2^ob`. -/
theorem and_overflowMask_toNat (ob : BitVec 2) (v : DevAddr) :
    (v &&& overflowMask ob).toNat = v.toNat % 2 ^ ob.toNat := by
  have key : ∀ (o : BitVec 2) (j : BitVec 7), (j &&& overflowMask o).toNat = j.toNat % 2 ^ o.toNat := by decide
  exact key ob v

/-- The overflow field as a number (41_address_encoder.md R97). -/
theorem ovf_toNat (ob : BitVec 2) (a : Nat) : (ovf ob a).toNat = (a / 256) % 2 ^ ob.toNat := by
  rw [ovf, and_overflowMask_toNat, BitVec.toNat_ofNat]
  exact Nat.mod_mod_of_dvd _ (Nat.pow_dvd_pow 2 (by have := ob.isLt; omega))

/-- The device address agrees with `base` outside the overflow field (41_address_encoder.md R98). -/
theorem synth_outside (base : DevAddr) (ob : BitVec 2) (a : Nat) :
    synth base ob a &&& ~~~overflowMask ob = base &&& ~~~overflowMask ob := by
  apply BitVec.eq_of_getLsbD_eq
  intro k hk
  simp only [synth, ovf, BitVec.getLsbD_and, BitVec.getLsbD_or, BitVec.getLsbD_not, hk, decide_true, Bool.true_and]
  cases (overflowMask ob).getLsbD k <;> simp

/-- The device address carries the overflow field (41_address_encoder.md R98). -/
theorem synth_inside (base : DevAddr) (ob : BitVec 2) (a : Nat) :
    synth base ob a &&& overflowMask ob = ovf ob a := by
  apply BitVec.eq_of_getLsbD_eq
  intro k hk
  simp only [synth, ovf, BitVec.getLsbD_and, BitVec.getLsbD_or, BitVec.getLsbD_not, hk, decide_true, Bool.true_and]
  cases (overflowMask ob).getLsbD k <;> simp

/-- Without overflow bits the device address is `base` (41_address_encoder.md R98). -/
theorem synth_zero (base : DevAddr) (a : Nat) : synth base 0#2 a = base := by
  have h : overflowMask 0#2 = 0#7 := by decide
  have hk : ∀ b : DevAddr, b &&& 127#7 = b := by decide
  simp [synth, ovf, h, hk]

/-- `UpdateDA` keeps `dar` in agreement with `base` outside the overflow field (41_address_encoder.md R101). -/
theorem updatedDar_outside {c : Descriptor} {base dar : DevAddr} (a : Nat)
    (h : dar &&& ~~~overflowMask c.overflowBits = base &&& ~~~overflowMask c.overflowBits) :
    updatedDar c base dar a &&& ~~~overflowMask c.overflowBits = base &&& ~~~overflowMask c.overflowBits := by
  unfold updatedDar
  split
  · exact h
  · exact synth_outside base c.overflowBits a

end Sys2Proof.Machine
end

