-- ==== Sys2Proof/Laws/Environment.lean ====
section
/-!
SUPPORT. The outside state the event history shows, over a history in two parts, and the length and pacing of a page
loop.
-/

namespace Sys2Proof.Machine

/-- Pacing of a list of events in two parts (20_memory.md R59). -/
theorem paced_append (ms : BitVec 17) (busy : Bool) (xs ys : List Event) :
    paced ms busy (xs ++ ys) = (paced ms busy xs && paced ms (xs.foldl (cycleAfter ms) busy) ys) := by
  induction xs generalizing busy with
  | nil => simp [paced]
  | cons e es ih => simp only [List.cons_append, paced, List.foldl_cons, ih, Bool.and_assoc]

/-- `UpdateDA` opens and closes no write cycle. -/
@[simp] theorem foldl_cycleAfter_selectEvents (ms : BitVec 17) (busy : Bool) (c : Descriptor) (base : DevAddr) (a : Nat) :
    (selectEvents c base a).foldl (cycleAfter ms) busy = busy := by
  unfold selectEvents
  split <;> rfl

/-- `UpdateDA` is no transaction with the device. -/
@[simp] theorem paced_selectEvents (ms : BitVec 17) (busy : Bool) (c : Descriptor) (base : DevAddr) (a : Nat) :
    paced ms busy (selectEvents c base a) = true := by
  unfold selectEvents
  split
  · rfl
  · simp [paced, accessesDevice]

/-- `UpdateDA` emits one event when `ob > 0` and none otherwise (41_address_encoder.md R99). -/
theorem selectEvents_length (c : Descriptor) (base : DevAddr) (a : Nat) :
    (selectEvents c base a).length = if c.overflowBits = 0#2 then 0 else 1 := by
  unfold selectEvents
  split <;> rfl

/-- `UpdateDA` emits no delay. -/
theorem selectEvents_count_dly (c : Descriptor) (base : DevAddr) (a : Nat) (ms : BitVec 17) :
    (selectEvents c base a).count (.dly ms) = 0 := by
  unfold selectEvents
  split <;> simp

/-- A page loop emits two events for each page when `ob = 0`, three when `ob > 0` (42_write_splitter.md R128). -/
theorem splitEvents_length (ms : BitVec 17) (c : Descriptor) (base dar : DevAddr) (eps pages a off left : Nat)
    (data : List Byte) :
    (splitEvents ms c base dar eps pages a off left data).length
      = pages * (if c.overflowBits = 0#2 then 2 else 3) := by
  induction pages generalizing a off left data with
  | zero => simp [splitEvents]
  | succ n ih =>
    simp only [splitEvents, List.length_append, ih, selectEvents_length, List.length_cons, List.length_nil, Nat.succ_mul]
    split <;> omega

/-- One event of each page is its delay (42_write_splitter.md R118). -/
theorem splitEvents_count_dly (ms : BitVec 17) (c : Descriptor) (base dar : DevAddr) (eps pages a off left : Nat)
    (data : List Byte) :
    (splitEvents ms c base dar eps pages a off left data).count (.dly ms) = pages := by
  induction pages generalizing a off left data with
  | zero => simp [splitEvents]
  | succ n ih =>
    simp only [splitEvents, List.count_append, ih, selectEvents_count_dly, List.count_cons, List.count_nil]
    simp
    omega

/-- A page loop that begins with no write cycle open is paced and ends with none open (20_memory.md R59,
42_write_splitter.md R118). -/
theorem paced_splitEvents (ms : BitVec 17) (c : Descriptor) (base dar : DevAddr) (eps pages a off left : Nat)
    (data : List Byte) :
    paced ms false (splitEvents ms c base dar eps pages a off left data) = true
      ∧ (splitEvents ms c base dar eps pages a off left data).foldl (cycleAfter ms) false = false := by
  induction pages generalizing a off left data with
  | zero => exact ⟨rfl, rfl⟩
  | succ n ih =>
    simp [splitEvents, paced_append, paced, accessesDevice, cycleAfter, ih]

end Sys2Proof.Machine
end

