-- ==== Sys2Proof/Laws/Memory.lean ====
section
/-!
SUPPORT. Reading after writing, and that every memory operation keeps the canonical form.
-/

namespace Sys2Proof.Machine

/-- A weaker lower bound holds too. -/
theorem canonicalFrom_mono {m : Memory} {lo lo' : Nat} (h : canonicalFrom lo m = true) (hl : lo' ≤ lo) :
    canonicalFrom lo' m = true := by
  cases m with
  | nil => rfl
  | cons c m =>
    obtain ⟨b, v⟩ := c
    simp only [canonicalFrom, Bool.and_eq_true, decide_eq_true_eq] at h ⊢
    exact ⟨⟨by omega, h.1.2⟩, h.2⟩

/-- An address below every listed one reads as erased. -/
theorem readByte_below {m : Memory} {lo a : Nat} (h : canonicalFrom lo m = true) (ha : a < lo) :
    readByte m a = erasedByte := by
  induction m generalizing lo with
  | nil => rfl
  | cons c m ih =>
    obtain ⟨b, v⟩ := c
    simp only [canonicalFrom, Bool.and_eq_true, decide_eq_true_eq] at h
    have hb : b ≠ a := by omega
    simp only [readByte, if_neg hb]
    exact ih h.2 (by omega)

/-- Writing one byte keeps the canonical form. -/
theorem writeByte_canonicalFrom {m : Memory} {lo a : Nat} {v : Byte} (h : canonicalFrom lo m = true) (ha : lo ≤ a) :
    canonicalFrom lo (writeByte m a v) = true := by
  induction m generalizing lo with
  | nil => by_cases hv : v = erasedByte <;> simp [writeByte, canonicalFrom, hv, ha]
  | cons c m ih =>
    obtain ⟨b, w⟩ := c
    have h' := h
    simp only [canonicalFrom, Bool.and_eq_true, decide_eq_true_eq] at h
    unfold writeByte
    split
    · rename_i hab
      split
      · exact h'
      · rename_i hv
        have : canonicalFrom (a + 1) ((b, w) :: m) = true := by
          simp only [canonicalFrom, Bool.and_eq_true, decide_eq_true_eq]
          exact ⟨⟨by omega, h.1.2⟩, h.2⟩
        simp [canonicalFrom, ha, hv] at this ⊢
        exact this
    · split
      · rename_i hab
        subst hab
        split
        · exact canonicalFrom_mono h.2 (by omega)
        · rename_i hv
          simp [canonicalFrom, ha, hv, h.2]
      · simp only [canonicalFrom, Bool.and_eq_true, decide_eq_true_eq]
        exact ⟨h.1, ih h.2 (by omega)⟩

/-- Reading the byte just written. -/
theorem readByte_writeByte_same {m : Memory} {lo a : Nat} {v : Byte} (h : canonicalFrom lo m = true) :
    readByte (writeByte m a v) a = v := by
  induction m generalizing lo with
  | nil => by_cases hv : v = erasedByte <;> simp [writeByte, readByte, hv]
  | cons c m ih =>
    obtain ⟨b, w⟩ := c
    simp only [canonicalFrom, Bool.and_eq_true, decide_eq_true_eq] at h
    unfold writeByte
    split
    · rename_i hab
      split
      · rename_i hv
        have hba : b ≠ a := by omega
        simp only [readByte, if_neg hba, hv]
        exact readByte_below h.2 (by omega)
      · simp [readByte]
    · split
      · rename_i hab
        split
        · rename_i hv
          rw [hv]
          exact readByte_below h.2 (by omega)
        · simp [readByte]
      · rename_i hab
        have hba : b ≠ a := fun e => hab e.symm
        simp only [readByte, if_neg hba]
        exact ih h.2

/-- Reading another byte than the one written. -/
theorem readByte_writeByte_other {m : Memory} {lo a x : Nat} {v : Byte} (h : canonicalFrom lo m = true) (hx : x ≠ a) :
    readByte (writeByte m a v) x = readByte m x := by
  have hax : ¬a = x := fun e => hx e.symm
  induction m generalizing lo with
  | nil => by_cases hv : v = erasedByte <;> simp [writeByte, readByte, hv, hax]
  | cons c m ih =>
    obtain ⟨b, w⟩ := c
    simp only [canonicalFrom, Bool.and_eq_true, decide_eq_true_eq] at h
    unfold writeByte
    split
    · split
      · rfl
      · simp [readByte, hax]
    · split
      · rename_i hab
        subst hab
        split
        · rename_i hv
          simp [readByte, hax]
        · simp [readByte, hax]
      · simp only [readByte, ih h.2]

/-- Writing bytes keeps the canonical form. -/
theorem memWrite_wf {m : Memory} {a : Nat} {bytes : List Byte} (h : m.wf = true) :
    Memory.wf (memWrite m a bytes) = true := by
  induction bytes generalizing m a with
  | nil => exact h
  | cons v vs ih => exact ih (writeByte_canonicalFrom h (Nat.zero_le _))

/-- A byte outside the written range is unchanged. -/
theorem readByte_memWrite_outside {m : Memory} {a x : Nat} {bytes : List Byte} (h : m.wf = true)
    (hx : x < a ∨ a + bytes.length ≤ x) : readByte (memWrite m a bytes) x = readByte m x := by
  induction bytes generalizing m a with
  | nil => rfl
  | cons v vs ih =>
    rw [List.length_cons] at hx
    rw [memWrite, ih (writeByte_canonicalFrom h (Nat.zero_le _)) (by omega)]
    exact readByte_writeByte_other h (by omega)

/-- Byte `i` written goes to address `a + i`. -/
theorem readByte_memWrite_inside {m : Memory} {a i : Nat} {bytes : List Byte} (h : m.wf = true)
    (hi : i < bytes.length) : readByte (memWrite m a bytes) (a + i) = bytes[i] := by
  induction bytes generalizing m a i with
  | nil => simp at hi
  | cons v vs ih =>
    have hw : (writeByte m a v).wf = true := writeByte_canonicalFrom h (Nat.zero_le _)
    cases i with
    | zero =>
      rw [memWrite, readByte_memWrite_outside hw (by omega)]
      exact readByte_writeByte_same h
    | succ i =>
      have : a + (i + 1) = (a + 1) + i := by omega
      rw [memWrite, this, ih hw (by simpa using hi)]
      rfl

end Sys2Proof.Machine
end

