-- ==== Sys2Proof/Laws/PerInstr.lean ====
section
/-!
SUPPORT. The family OpField of statements about each instruction as syntax: its canonical word carries the operation code
of its row in 30_encoding.md R72, and no reserved one (R74).
-/

namespace Sys2Proof.Laws.OpField

/-- The operation code of each row (30_encoding.md R72). -/
def code : Instr → BitVec 3
  | .init => 0#3
  | .write _ _ => 1#3
  | .read _ _ => 2#3
  | .read1 _ => 3#3
  | .wpa => 4#3
  | .wpc => 5#3

/-- The word of an instruction carries its row's code, which is no reserved one. -/
def Statement (i : Instr) : Prop := opField (encode i) = code i ∧ (code i).toNat < 6

theorem init : Statement .init := by simp [Statement, encode, code, opField_packCommand]
theorem write (addr : Addr) (len : Len) : Statement (.write addr len) := by simp [Statement, encode, code, opField_packCommand]
theorem read (addr : Addr) (len : Len) : Statement (.read addr len) := by simp [Statement, encode, code, opField_packCommand]
theorem read1 (addr : Addr) : Statement (.read1 addr) := by simp [Statement, encode, code, opField_packCommand]
theorem wpa : Statement .wpa := by simp [Statement, encode, code, opField_packCommand]
theorem wpc : Statement .wpc := by simp [Statement, encode, code, opField_packCommand]

end Sys2Proof.Laws.OpField
end

