-- ==== Sys2Proof/Laws/Splitter.lean ====
section
/-!
SUPPORT. The arithmetic of the splitter: the effective page size, the offset and the page count, and one turn of the
page loop.
-/

namespace Sys2Proof.Machine

/-- A page size is at least one byte exactly when it is not 0. -/
theorem one_le_toNat {w : Nat} {v : BitVec w} : 1 ≤ v.toNat ↔ v ≠ 0#w := by
  rw [Nat.one_le_iff_ne_zero, ne_eq, ne_eq, ← BitVec.toNat_inj, BitVec.toNat_ofNat, Nat.zero_mod]

/-- A well-formed descriptor and a SPLIT_PAGE other than 0 give a page size of at least one byte (42_write_splitter.md
R113). -/
theorem one_le_effectivePageSize {p : Params} {c : Descriptor} (len : Len) (h : c.wellFormed = true)
    (hp : p.splitPage ≠ 0#8) : 1 ≤ (effectivePageSize p c len).toNat := by
  simp only [Descriptor.wellFormed, Bool.and_eq_true, decide_eq_true_eq] at h
  unfold effectivePageSize
  split
  · exact one_le_toNat.mpr hp
  · exact h.1.1

/-- A length of 0 is never split with SPLIT_PAGE (42_write_splitter.md R112). -/
theorem effectivePageSize_zero (p : Params) (c : Descriptor) : effectivePageSize p c 0#17 = c.pageSize := by
  simp [effectivePageSize]

/-- A well-formed descriptor has at most 65536 bytes (70_reset_and_hazards.md R176). -/
theorem capacity_le {c : Descriptor} (h : c.wellFormed = true) : c.capacity.toNat ≤ 65536 := by
  simp only [Descriptor.wellFormed, Bool.and_eq_true, decide_eq_true_eq] at h
  exact h.2

/-- A well-formed descriptor has one or two address bytes (70_reset_and_hazards.md R176). -/
theorem addressWidth_cases {c : Descriptor} (h : c.wellFormed = true) :
    c.addressWidth = 1#2 ∨ c.addressWidth = 2#2 := by
  simp only [Descriptor.wellFormed, Bool.and_eq_true, Bool.or_eq_true, decide_eq_true_eq] at h
  exact h.1.2

/-- There is nothing to send exactly when the count is 0. -/
theorem pagesByFormula_eq_zero {eps off len : Nat} : pagesByFormula eps off len = 0 ↔ len + off = 0 := by
  unfold pagesByFormula
  split <;> simp_all

/-- The page count is at most the span (42_write_splitter.md R114). -/
theorem pagesByFormula_le (eps off len : Nat) : pagesByFormula eps off len ≤ len + off := by
  unfold pagesByFormula
  split
  · omega
  · have := Nat.div_le_self (len + off - 1) eps
    omega

/-- One turn of the page loop: sending the chunk leaves one page less (42_write_splitter.md R119 (d)). -/
theorem pagesByFormula_turn {eps off len : Nat} (ho : off < eps) (h : 1 ≤ len + off) :
    pagesByFormula eps off len = pagesByFormula eps 0 (len - min (eps - off) len) + 1 := by
  unfold pagesByFormula
  rw [if_neg (by omega)]
  by_cases hl : eps - off < len
  · have hm : min (eps - off) len = eps - off := by omega
    rw [hm, if_neg (by omega)]
    have : len + off - 1 = (len - (eps - off) + 0 - 1) + eps := by omega
    rw [this, Nat.add_div_right _ (by omega)]
  · have hm : min (eps - off) len = len := by omega
    rw [hm, if_pos (by omega), Nat.div_eq_of_lt (by omega)]

/-- After a chunk the next address starts a page, or everything has been sent (42_write_splitter.md R119 (b)). -/
theorem next_page_aligned {eps a len : Nat} (h : 1 ≤ eps) :
    min (eps - a % eps) len = len ∨ (a + min (eps - a % eps) len) % eps = 0 := by
  by_cases hl : len ≤ eps - a % eps
  · left; omega
  · right
    have hm : min (eps - a % eps) len = eps - a % eps := by omega
    have hlt : a % eps < eps := Nat.mod_lt _ h
    have hd := Nat.div_add_mod a eps
    have : a + (eps - a % eps) = eps * (a / eps) + eps := by omega
    rw [hm, this, ← Nat.mul_succ, Nat.mul_mod_right]

/-- A chunk of at least one byte ends in the page it starts in (42_write_splitter.md R119 (e)). -/
theorem chunk_in_page {eps a n : Nat} (h : 1 ≤ eps) (h1 : 1 ≤ n) (hn : n ≤ eps - a % eps) :
    (a + n - 1) / eps = a / eps := by
  have hlt : a % eps < eps := Nat.mod_lt _ h
  have hd := Nat.div_add_mod a eps
  have : a + n - 1 = (a % eps + n - 1) + eps * (a / eps) := by omega
  rw [this, Nat.add_mul_div_left _ _ h, Nat.div_eq_of_lt (by omega), Nat.zero_add]

end Sys2Proof.Machine
end

