-- ==== Sys2Proof/Laws/RefDevice.lean ====
section
/-!
SUPPORT. The reference device under the block's events: which address it takes a transaction to be at, and its effect
on a list of events cut in two.
-/

namespace Sys2Proof.Machine

/-- The effect of a list of events followed by another (20_memory.md R62). -/
theorem refRun_append (c : Descriptor) (base : DevAddr) (xs ys : List Event) (d : RefDevice) :
    refRun c base d (xs ++ ys) = (refRun c base d xs).bind fun d' => refRun c base d' ys := by
  induction xs generalizing d with
  | nil => rfl
  | cons e es ih =>
    simp only [List.cons_append, refRun]
    cases refApply c base d e with
    | none => rfl
    | some d' => exact ih d'

/-- The events of `UpdateDA` do not touch `EE` (20_memory.md R62). -/
theorem refRun_selectEvents (c : Descriptor) (base : DevAddr) (a : Nat) (d : RefDevice) :
    ∃ d', refRun c base d (selectEvents c base a) = some d' ∧ d'.ee = d.ee := by
  unfold selectEvents
  split
  · exact ⟨d, rfl, rfl⟩
  · exact ⟨_, rfl, rfl⟩

/-- The device answers the device address `UpdateDA` leaves (41_address_encoder.md R101, 20_memory.md R62). -/
theorem answers_updatedDar {c : Descriptor} {base dar : DevAddr} (a : Nat)
    (h : dar &&& ~~~overflowMask c.overflowBits = base &&& ~~~overflowMask c.overflowBits) :
    answers base c.overflowBits (updatedDar c base dar a) = true := by
  unfold answers
  rw [updatedDar_outside a h]
  simp

/-- The address the device takes the block's transaction at `a` to be at (41_address_encoder.md R97, R98, R100,
20_memory.md R62). -/
theorem lin_updatedDar {c : Descriptor} {base dar : DevAddr} (a : Nat) (hw : c.wellFormed = true) :
    lin c.overflowBits (updatedDar c base dar a) c.addressWidth (regAddr c.addressWidth a)
      = if c.addressWidth = 1#2 then (a / 256) % 2 ^ c.overflowBits.toNat * 256 + a % 256 else a % 65536 := by
  unfold lin
  rcases addressWidth_cases hw with h | h
  · rw [if_pos h, if_pos h, and_overflowMask_toNat]
    have e1 : (regAddr c.addressWidth a).toNat % 256 = a % 256 := by rw [h]; simp [regAddr]
    rw [e1]
    congr 2
    by_cases ho : c.overflowBits = 0#2
    · rw [ho]; simp; omega
    · simp only [updatedDar, if_neg ho]
      rw [← and_overflowMask_toNat, synth_inside, ovf_toNat]
  · have h1 : c.addressWidth ≠ 1#2 := by rw [h]; decide
    rw [if_neg h1, if_neg h1, h]
    simp [regAddr]

/-- With a faithful encoding the device takes the block's transaction at `a` to be at `a` (41_address_encoder.md R103). -/
theorem lin_eq_of_faithful {c : Descriptor} {base dar : DevAddr} {a : Nat} (hw : c.wellFormed = true)
    (hf : c.faithful = true) (ha : a < c.capacity.toNat) :
    lin c.overflowBits (updatedDar c base dar a) c.addressWidth (regAddr c.addressWidth a) = a := by
  rw [lin_updatedDar a hw]
  have hcap := capacity_le hw
  rcases addressWidth_cases hw with h | h
  · rw [if_pos h]
    have hlt : a / 256 < 2 ^ c.overflowBits.toNat := by
      unfold Descriptor.faithful at hf
      split at hf
      · rename_i ho
        rw [h] at hf
        simp at hf
        rw [ho]
        simp
        omega
      · rw [h] at hf
        simp at hf
        have hp : 2 ^ (8 + c.overflowBits.toNat) = 256 * 2 ^ c.overflowBits.toNat := by rw [Nat.pow_add]
        exact Nat.div_lt_of_lt_mul (by omega)
    rw [Nat.mod_eq_of_lt hlt]
    omega
  · rw [if_neg (by rw [h]; decide)]
    omega

/-- Writing bytes in two parts (20_memory.md R62). -/
theorem memWrite_append (xs ys : List Byte) (m : Memory) (a : Nat) :
    memWrite m a (xs ++ ys) = memWrite (memWrite m a xs) (a + xs.length) ys := by
  induction xs generalizing m a with
  | nil => rfl
  | cons x xs ih =>
    simp only [List.cons_append, memWrite, ih, List.length_cons]
    congr 1
    omega

end Sys2Proof.Machine
end

