-- ==== Sys2Proof/Laws/Step.lean ====
section
/-!
SUPPORT. Inversion: everything a step, and each instruction, can do when it answers a next state.
-/

namespace Sys2Proof.Machine

/-- What each instruction does when its descriptor is well-formed (30_encoding.md R72). -/
def ExecEffect (i : Instr) (s t : State) : Prop :=
  match i with
  | .init => t = startUp s
  | .write addr len =>
    (∃ r, preflight s addr len = some r ∧ t = raiseFail r s)
      ∨ (preflight s addr len = none ∧ effectivePageSize s.params s.cfg len ≠ 0#8 ∧ t = acceptWrite addr len s)
  | .read addr len =>
    (∃ r, preflight s addr len = some r ∧ t = raiseFail r s)
      ∨ (preflight s addr len = none ∧ t = performRead addr len s)
  | .read1 addr =>
    (∃ r, preflight s addr 1#17 = some r ∧ t = failRead1 s)
      ∨ (preflight s addr 1#17 = none ∧ t = performRead1 addr s)
  | .wpa => t = drivePin true s
  | .wpc => t = drivePin false s

/-- Everything an instruction can do when it answers a next state. -/
theorem exec_next {i : Instr} {s t : State} (h : exec i s = .next t) :
    s.cfg.wellFormed = true ∧ ExecEffect i s t := by
  cases i <;> simp only [exec, execInit, execWrite, execRead, execRead1, execWpa, execWpc,
    whenWellFormed_eq_next] at h
  case init | wpa | wpc => exact ⟨h.1, h.2.symm⟩
  case write =>
    split at h
    · rename_i r hr
      rw [whenWellFormed_eq_next] at h
      exact ⟨h.1, .inl ⟨r, hr, h.2.symm⟩⟩
    · rename_i hr
      rw [whenPageSized_eq_next] at h
      exact ⟨h.1, .inr ⟨hr, h.2.1, h.2.2.symm⟩⟩
  all_goals
    refine ⟨h.1, ?_⟩
    have h2 := h.2
    split at h2
    · rename_i r hr
      exact .inl ⟨r, hr, h2.symm⟩
    · rename_i hr
      exact .inr ⟨hr, h2.symm⟩

/-- A WRITE that passes its checks is accepted (42_write_splitter.md R121). -/
theorem exec_write_of_passes {s : State} {addr : Addr} {len : Len} (h : preflight s addr len = none)
    (hw : s.cfg.wellFormed = true) (hp : s.params.splitPage ≠ 0#8) :
    exec (.write addr len) s = .next (acceptWrite addr len s) := by
  have he := one_le_toNat.mp (one_le_effectivePageSize len hw hp)
  simp only [exec, execWrite, h]
  exact whenPageSized_eq_next.mpr ⟨hw, he, rfl⟩

/-- A WRITE that fails a check ends at once (42_write_splitter.md R121). -/
theorem exec_write_of_fails {s : State} {addr : Addr} {len : Len} {r : FailReason} (h : preflight s addr len = some r)
    (hw : s.cfg.wellFormed = true) : exec (.write addr len) s = .next (raiseFail r s) := by
  simp only [exec, execWrite, h]
  exact whenWellFormed_of_wf _ hw

/-- What a step that is not cut does, in each state of `seq` (10_state.md R27, R41, 42_write_splitter.md R121 to R123). -/
def StepEffect (s t : State) : Prop :=
  (s.seq = .idle ∧ s.cmdIn = [] ∧ t = beginStep s)
    ∨ (s.seq = .idle ∧ ∃ w rest i, s.cmdIn = w :: rest ∧ decode w = .ok i
        ∧ exec i (popCommand rest (beginStep s)) = .next t)
    ∨ (s.seq = .idle ∧ ∃ w rest, s.cmdIn = w :: rest ∧ (opField w = 6#3 ∨ opField w = 7#3)
        ∧ t = complete false (popCommand rest (beginStep s)))
    ∨ (s.seq = .wPage
        ∧ t = advancePage (nextChunk s) (issueWrite (nextAddress s) (nextChunk s) (beginStep s)))
    ∨ (s.seq = .wDly
        ∧ t = if (delayPage (beginStep s)).pg = 0#17 then complete true (setSeq .idle (delayPage (beginStep s)))
              else setSeq .wPage (delayPage (beginStep s)))

/-- Everything the sequencer's next action can do. -/
theorem advance_next {s t : State} (h : advance (beginStep s) = .next t) :
    s.cfg.wellFormed = true ∧ StepEffect s t := by
  unfold advance at h
  cases hq : s.seq with
  | idle =>
    simp only [beginStep_seq, hq, beginStep_cmdIn] at h
    cases hc : s.cmdIn with
    | nil =>
      simp only [hc, whenWellFormed_eq_next, beginStep_cfg] at h
      exact ⟨h.1, .inl ⟨hq, hc, h.2.symm⟩⟩
    | cons w rest =>
      simp only [hc, acceptCommand] at h
      split at h
      · rename_i i hd
        exact ⟨(exec_next h).1, .inr (.inl ⟨hq, w, rest, i, hc, hd, h⟩)⟩
      · rename_i e hd
        simp only [reservedCommand, whenWellFormed_eq_next] at h
        exact ⟨h.1, .inr (.inr (.inl ⟨hq, w, rest, hc, (decode_eq_error.mp hd).1, h.2.symm⟩))⟩
  | wPage =>
    simp only [beginStep_seq, hq, pageStep, whenWellFormed_eq_next, beginStep_cfg] at h
    exact ⟨h.1, .inr (.inr (.inr (.inl ⟨hq, h.2.symm⟩)))⟩
  | wDly =>
    simp only [beginStep_seq, hq, delayStep, whenWellFormed_eq_next, beginStep_cfg] at h
    exact ⟨h.1, .inr (.inr (.inr (.inr ⟨hq, h.2.symm⟩)))⟩

/-- Everything a step can do: reset, a reset that cuts it, or its whole effect (10_state.md R45, 00_scope.md R19). -/
theorem step_next {s t : State} (h : step s = .next t) :
    (s.rst = true ∧ t = applyReset s)
      ∨ (s.rst = false ∧ s.cfg.wellFormed = true ∧ ∃ p u, s.rstWithin = some p ∧ advance (beginStep s) = .next u
          ∧ StepEffect s u ∧ reaches p s u = true ∧ t = abandon p s u)
      ∨ (s.rst = false ∧ s.cfg.wellFormed = true ∧ resetWithin s = none ∧ advance (beginStep s) = .next t
          ∧ StepEffect s t ∧ (s.seq = .wPage → nextChunk s ≤ s.wd.length)) := by
  rw [step, runSequencer] at h
  cases hr : s.rst with
  | true => left; simpa [hr, eq_comm] using h
  | false =>
    right
    simp only [hr, Bool.false_eq_true, if_false] at h
    split at h
    · rename_i u hu
      obtain ⟨p, v, hp, hv, hreach, rfl⟩ := resetWithin_eq_some.mp hu
      obtain ⟨hw, he⟩ := advance_next hv
      exact .inl ⟨rfl, hw, p, v, hp, hv, he, hreach, by simpa [eq_comm] using h⟩
    · rename_i hn
      obtain ⟨ha, hd⟩ := whenSupplied_next (whenReturned_next h)
      obtain ⟨hw, he⟩ := advance_next ha
      exact .inr ⟨rfl, hw, hn, ha, he, fun hq => Nat.not_lt.mp fun hlt => hd ⟨hw, hq, hlt⟩⟩

/-- Outside reset, with none coming, a step has its whole effect. -/
theorem step_next_uncut {s t : State} (hr : s.rst = false) (hn : s.rstWithin = none) (h : step s = .next t) :
    s.cfg.wellFormed = true ∧ StepEffect s t ∧ (s.seq = .wPage → nextChunk s ≤ s.wd.length) := by
  rcases step_next h with ⟨h1, _⟩ | ⟨_, _, p, _, hp, _⟩ | ⟨_, hw, _, _, he, hd⟩
  · simp [hr] at h1
  · simp [hn] at hp
  · exact ⟨hw, he, hd⟩

/-- Outside reset, with none coming, a step is the sequencer's next action, once its data is there and the collaborators
have returned (10_state.md R42, R45). -/
theorem step_of_uncut {s : State} (hr : s.rst = false) (hn : s.rstWithin = none) :
    step s = whenReturned s (whenSupplied s (advance (beginStep s))) := by
  simp [step, runSequencer, hr, resetWithin_of_none hn]

/-- A reset that falls inside a step at a point it reaches cuts it there (00_scope.md R19). -/
theorem step_of_cut {s t : State} {p : ResetPoint} (hr : s.rst = false) (hp : s.rstWithin = some p)
    (ha : advance (beginStep s) = .next t) (hreach : reaches p s t = true) : step s = .next (abandon p s t) := by
  simp [step, runSequencer, hr, resetWithin_eq_some.mpr ⟨p, t, hp, ha, hreach, rfl⟩]

end Sys2Proof.Machine
end

