-- ==== Sys2Proof/Laws/Run.lean ====
section
/-!
SUPPORT. One step of a ready block in each state of `seq`, as an equation, and a run cut in two.
-/

namespace Sys2Proof.Machine

/-- A ready block that has its data does what the sequencer does next. -/
theorem step_of_ready {s : State} (h : Ready s) (hd : s.seq = .wPage → nextChunk s ≤ s.wd.length) :
    step s = advance (beginStep s) := by
  rw [step_of_uncut h.1 h.2.1, whenSupplied_of_data _ hd, whenReturned_ready _ h.2.2.2.1]

/-- A ready block in IDLE runs the instruction whose word it is presented (10_state.md R41). -/
theorem step_of_command {s : State} {w : CmdWord} {rest : List CmdWord} {i : Instr} (h : Ready s) (hq : s.seq = .idle)
    (hc : s.cmdIn = w :: rest) (hd : decode w = .ok i) : step s = exec i (popCommand rest (beginStep s)) := by
  rw [step_of_ready h (by simp [hq])]
  simp only [advance, beginStep_seq, hq, beginStep_cmdIn, hc, acceptCommand, hd]

/-- A ready block in W_PAGE with its data issues one page transaction (42_write_splitter.md R122). -/
theorem step_of_page {s : State} (h : Ready s) (hq : s.seq = .wPage) (hd : nextChunk s ≤ s.wd.length) :
    step s = .next (advancePage (nextChunk s) (issueWrite (nextAddress s) (nextChunk s) (beginStep s))) := by
  rw [step_of_ready h fun _ => hd]
  have ha : advance (beginStep s) = pageStep (beginStep s) := by simp only [advance, beginStep_seq, hq]
  rw [ha, pageStep]
  exact whenWellFormed_of_wf _ h.2.2.1

/-- A ready block in W_DLY emits the delay and counts the page (42_write_splitter.md R123). -/
theorem step_of_delay {s : State} (h : Ready s) (hq : s.seq = .wDly) :
    step s = .next (if (delayPage (beginStep s)).pg = 0#17 then complete true (setSeq .idle (delayPage (beginStep s)))
      else setSeq .wPage (delayPage (beginStep s))) := by
  rw [step_of_ready h (by simp [hq])]
  have ha : advance (beginStep s) = delayStep (beginStep s) := by simp only [advance, beginStep_seq, hq]
  rw [ha, delayStep]
  exact whenWellFormed_of_wf _ h.2.2.1

/-- A run of `k + j` steps whose first `k` reach `t` is the run of `j` steps from `t`. -/
theorem run_add {k j : Nat} {s t : core.State} (h : Host.Core.run core k s = .next t) :
    Host.Core.run core (k + j) s = Host.Core.run core j t := by
  induction k generalizing s with
  | zero =>
    cases h
    rw [Nat.zero_add]
  | succ k ih =>
    rw [show k + 1 + j = (k + j) + 1 by omega]
    simp only [Host.Core.run] at h ⊢
    cases hs : core.step s with
    | next u =>
      rw [hs] at h
      exact ih h
    | fault f => rw [hs] at h; simp at h
    | refused q => rw [hs] at h; simp at h

end Sys2Proof.Machine
end

