-- ==== Sys2Proof/Tests/Slice0.lean ====
section
/-!
SUPPORT. The model's own tests, their expected results taken from 95_test_vectors.md and the worked examples of the
rules, and for each statement with hypotheses a witness that meets them.
-/

namespace Sys2Proof.Tests

open Sys2Proof.Machine

/-! ### Descriptors and states -/

/-- `C02 = (256, 8, 1, 0)` of 95_test_vectors.md. -/
def c02 : Descriptor := { capacity := 256#17, pageSize := 8#8, addressWidth := 1#2, overflowBits := 0#2 }

/-- `C64 = (8192, 32, 2, 0)` of 95_test_vectors.md. -/
def c64 : Descriptor := { capacity := 8192#17, pageSize := 32#8, addressWidth := 2#2, overflowBits := 0#2 }

/-- `C08 = (1024, 16, 1, 2)` of 95_test_vectors.md. -/
def c08 : Descriptor := { capacity := 1024#17, pageSize := 16#8, addressWidth := 1#2, overflowBits := 2#2 }

/-- `C512 = (65536, 128, 2, 0)` of 95_test_vectors.md. -/
def c512 : Descriptor := { capacity := 65536#17, pageSize := 128#8, addressWidth := 2#2, overflowBits := 0#2 }

/-- `C16 = (2048, 16, 1, 3)` of 95_test_vectors.md. -/
def c16 : Descriptor := { capacity := 2048#17, pageSize := 16#8, addressWidth := 1#2, overflowBits := 3#2 }

/-- A block in IDLE with the given descriptor, bias and mode. -/
def block (c : Descriptor) (bias : BitVec 3) (m : Mode) : State :=
  { State.reset with
    cfg := c, bias := bias, mode := m, wpPresent := decide (m = .activeWp), dar := 0x50#7 ||| bias.setWidth 7 }

/-- The data `A0 .. A9` of program 1. -/
def dataA : List Byte := [0xA0#8, 0xA1#8, 0xA2#8, 0xA3#8, 0xA4#8, 0xA5#8, 0xA6#8, 0xA7#8, 0xA8#8, 0xA9#8]

/-- Program 1, step 3 (`WRITE 5, 10`), after W-ACCEPT. -/
def page02 : State :=
  { block c02 0#3 .active with
    addrL := 5#16, lenL := 10#17, eps := 8#8, curOff := 5#8, pg := 2#17, seq := .wPage, wd := dataA }

/-- Program 1, step 3, after the first W-PAGE. -/
def dly02 : State :=
  { page02 with
    bytesSent := 3#17, curOff := 0#8, seq := .wDly, wd := dataA.drop 3
    events := [.wr 0x50#7 1#2 5#16 3#17 [0xA0#8, 0xA1#8, 0xA2#8]] }

/-- `WRITE 5, 0` under `formula`, after W-ACCEPT: one page of no bytes. -/
def page02empty : State :=
  { block c02 0#3 .active with
    params := { Config.defaults with zeroLenWrite := .formula }, addrL := 5#16, lenL := 0#17, eps := 8#8, curOff := 5#8, pg := 1#17, seq := .wPage }

/-- A build with other values of every parameter. -/
def otherParams : Params :=
  { baseAddr := 0x48#7, tWcMs := 10#17, splitLen := 8, splitPage := 4#8, zeroLenWrite := .formula }

/-- A build with SPLIT_PAGE = 0. -/
def unsplit : State := { block c64 0#3 .active with params := { Config.defaults with splitPage := 0#8 } }

/-- A caller that presents the command `w`. -/
def offered (w : CmdWord) (s : State) : State := { s with cmdIn := [w] }

/-- The next state, if there is one. -/
def after (r : Host.Outcome State Fault Refusal) : Option State :=
  match r with
  | .next t => some t
  | .fault _ => none
  | .refused _ => none

/-- The events of the next state. -/
def eventsOf (r : Host.Outcome State Fault Refusal) : Option (List Event) := (after r).map State.events

/-- The `rsp_ok` values of the next state. -/
def oksOf (r : Host.Outcome State Fault Refusal) : Option (List Bool) :=
  (after r).map fun t => t.responses.map Response.ok

/-- The reason of a fault. -/
def faultOf (r : Host.Outcome State Fault Refusal) : Option Fault :=
  match r with
  | .next _ => none
  | .fault f => some f
  | .refused _ => none

/-- The reason of a refusal. -/
def refusalOf (r : Host.Outcome State Fault Refusal) : Option Refusal :=
  match r with
  | .next _ => none
  | .fault _ => none
  | .refused q => some q

/-! ### Well-formedness: 70_reset_and_hazards.md R176, R177 -/

theorem test_wellFormed_c02 : c02.wellFormed = true := by decide
theorem test_illFormed_pageSize_zero : { c02 with pageSize := 0#8 }.wellFormed = false := by decide
theorem test_illFormed_addressWidth_zero : { c02 with addressWidth := 0#2 }.wellFormed = false := by decide
theorem test_illFormed_addressWidth_three : { c02 with addressWidth := 3#2 }.wellFormed = false := by decide
theorem test_illFormed_capacity_above : { c512 with capacity := 65537#17 }.wellFormed = false := by decide
theorem test_wellFormed_capacity_top : c512.wellFormed = true := by decide
theorem test_unfaithful_capacity : { c02 with capacity := 257#17 }.faithful = false := by decide
theorem test_unfaithful_overflow : { c08 with capacity := 1025#17 }.faithful = false := by decide
theorem test_unsound_clamp : { c64 with pageSize := 8#8 }.sound Config.defaults = false := by decide
theorem test_unsound_region : { c08 with pageSize := 48#8 }.sound Config.defaults = false := by decide
theorem test_sound_all :
    c02.sound Config.defaults = true ∧ c64.sound Config.defaults = true ∧ c08.sound Config.defaults = true
      ∧ c16.sound Config.defaults = true ∧ c512.sound Config.defaults = true := by decide

/-! ### Encodings: the words of 95_test_vectors.md sections 2.5 to 2.8, bit by bit -/

theorem test_decode_init : decode 0b000_00000000000000000_0000000000000000#36 = .ok .init := by decide
theorem test_decode_write : decode 0b001_00000000000001010_0000000000000101#36 = .ok (.write 5#16 10#17) := by decide
theorem test_decode_write_w14 : decode 0x20024FFDC#36 = .ok (.write 65500#16 36#17) := by decide
theorem test_decode_read : decode 0b010_00000000000001000_0000001011110000#36 = .ok (.read 0x2F0#16 8#17) := by decide
theorem test_decode_read_k13 : decode 0x500000000#36 = .ok (.read 0#16 65536#17) := by decide
theorem test_decode_read1 : decode 0b011_00000000000000000_0000011111111111#36 = .ok (.read1 0x7FF#16) := by decide
theorem test_decode_wpa : decode 0b100_00000000000000000_0000000000000000#36 = .ok .wpa := by decide
theorem test_decode_wpc : decode 0b101_00000000000000000_0000000000000000#36 = .ok .wpc := by decide
theorem test_decode_reserved6 : decode 0xC00000000#36 = .error (.reservedOp 6#3) := by decide
theorem test_decode_reserved7 : decode 0xE00000000#36 = .error (.reservedOp 7#3) := by decide
/-- An ignored field takes any value (30_encoding.md R71). -/
theorem test_decode_ignored : decode 0x1FFFFFFFF#36 = .ok .init ∧ decode 0x7FFFF0005#36 = .ok (.read1 5#16) := by decide
theorem test_encode : encode (.write 5#16 10#17) = 0x2000A0005#36 ∧ encode (.read 0x2F0#16 8#17) = 0x4000802F0#36 := by
  decide
theorem test_decodeTableWord : decodeTableWord 36 0x2000A0005 = some (.write 5#16 10#17) := by decide
theorem test_decodeTableWord_bytes : decodeTableWord 40 0xA00000000 = some .wpc := by decide

theorem test_chip_words :
    packChip c02 = 0x02100100#32 ∧ packChip c64 = 0x04402000#32 ∧ packChip c08 = 0x12200400#32
      ∧ packChip c16 = 0x1A200800#32 ∧ packChip c512 = 0x05010000#32 := by decide
theorem test_unpack_chip : unpackChip 0x12200400#32 = c08 ∧ unpackChip 0xE5010000#32 = c512 := by decide

theorem test_event_words :
    eventWord (.wr 0x50#7 1#2 5#16 3#17 []) = 0x0D0400140006#46
      ∧ eventWord (.wr 0x51#7 2#2 0x10#16 16#17 []) = 0x0D1800400020#46
      ∧ eventWord (.rd 0x50#7 1#2 5#16 10#17) = 0x150400140014#46
      ∧ eventWord (.rd 0x51#7 2#2 0x1E#16 4#17) = 0x151800780008#46 := by decide
theorem test_event_words_rest :
    eventWord (.sel 0x54#7) = 0x054000000000#46 ∧ eventWord (.dly 5#17) = 0x18000000000A#46
      ∧ eventWord .pinOut = 0x200000000000#46 ∧ eventWord (.pin false) = 0x280000000000#46
      ∧ eventWord (.pin true) = 0x280000000001#46 := by decide
theorem test_codes : modeCode .activeWp = 2#2 ∧ seqCode .wDly = 2#2 := by decide

/-! ### The encoder and the splitter's arithmetic: 41_address_encoder.md R102, 95_test_vectors.md 2.2 to 2.5 -/

theorem test_synth_table :
    synth 0x50#7 0#2 0x3FF = 0x50#7 ∧ synth 0x57#7 1#2 0x0FF = 0x56#7 ∧ synth 0x57#7 1#2 0x100 = 0x57#7
      ∧ synth 0x52#7 1#2 0x1FF = 0x53#7 ∧ synth 0x57#7 2#2 0x2AB = 0x56#7 ∧ synth 0x54#7 2#2 0x100 = 0x55#7
      ∧ synth 0x55#7 2#2 0x000 = 0x54#7 ∧ synth 0x57#7 3#2 0x7FF = 0x57#7 ∧ synth 0x53#7 3#2 0x500 = 0x55#7 := by decide
theorem test_regAddr :
    regAddr 1#2 0x2AB = 0xAB#16 ∧ regAddr 1#2 0x100 = 0#16 ∧ regAddr 2#2 0x1234 = 0x1234#16
      ∧ regAddr 2#2 0xFFFF = 0xFFFF#16 := by decide
/-- Rows E1 to E8. -/
theorem test_eps :
    effectivePageSize Config.defaults c02 10#17 = 8#8 ∧ effectivePageSize Config.defaults c08 31#17 = 16#8
      ∧ effectivePageSize Config.defaults c02 200#17 = 8#8 ∧ effectivePageSize Config.defaults c64 30#17 = 32#8
      ∧ effectivePageSize Config.defaults c64 31#17 = 16#8 ∧ effectivePageSize Config.defaults c512 31#17 = 16#8
      ∧ effectivePageSize Config.defaults c512 1#17 = 128#8
      ∧ effectivePageSize Config.defaults { c64 with pageSize := 8#8 } 31#17 = 16#8 := by decide
/-- Each literal is a parameter (00_scope.md R8): the steps of another build use its values. -/
theorem test_other_build :
    (effectivePageSize otherParams c64 9#17 = 4#8 ∧ effectivePageSize otherParams c64 8#17 = 32#8)
      ∧ (applyReset { State.reset with params := otherParams, cfgBias := 5#3 }).dar = 0x4D#7
      ∧ (after (step { dly02 with params := otherParams, events := [] })).map State.events = some [.dly 10#17] := by decide
/-- S1, S2, W8, W12 and the zero lengths of 42_write_splitter.md R124. -/
theorem test_pages :
    pageCount .noEvent 8 5 10 = 2 ∧ pageCount .noEvent 16 0 40 = 3 ∧ pageCount .noEvent 8 0 256 = 32
      ∧ pageCount .noEvent 16 4 31 = 3 ∧ pageCount .noEvent 8 5 0 = 0 ∧ pageCount .formula 8 0 0 = 0
      ∧ pageCount .formula 8 5 0 = 1 := by decide
/-- Row W17: the whole page loop of `WRITE 250, 20` on C08 with bias 4. -/
theorem test_split_w17 (d : List Byte) :
    splitEvents 5#17 c08 0x54#7 0x54#7 16 2 250 10 20 d
      = [.sel 0x54#7, .wr 0x54#7 1#2 0xFA#16 6#17 (d.take 6), .dly 5#17,
         .sel 0x55#7, .wr 0x55#7 1#2 0x00#16 14#17 ((d.drop 6).take 14), .dly 5#17] := by rfl

/-! ### One step each -/

theorem test_reset_fixed : applyReset State.reset = State.reset := by decide
/-- Reset in the middle of a WRITE abandons it and emits nothing (70_reset_and_hazards.md R172, 10_state.md R46). -/
theorem test_reset_abandons :
    (after (step { dly02 with rst := true })).map (fun t => (t.seq, t.mode, t.events.length))
      = some (.idle, .uninit, 1) := by decide
/-- Row P2. -/
theorem test_init_p2 :
    (after (exec .init { block c02 0#3 .uninit with wpPresent := true })).map (fun t => (t.mode, t.events))
      = some (.activeWp, [.pinOut, .pin false]) := by decide
/-- Row P1, through the step. -/
theorem test_init_p1 :
    (after (step (State.reset.withFetchWord 36 0))).map (fun t => (t.mode, t.events)) = some (.active, []) := by decide
/-- S1: `WRITE 5, 10` on C02 is accepted. -/
theorem test_write_s1 :
    (after (exec (.write 5#16 10#17) (block c02 0#3 .active))).map
        (fun t => (t.eps, t.curOff, t.pg, t.seq, t.events))
      = some (8#8, 5#8, 2#17, .wPage, []) := by decide
/-- K4 and K5: `WRITE 248` of 8 passes, of 9 fails. -/
theorem test_write_bounds :
    oksOf (exec (.write 248#16 9#17) (block c02 0#3 .active)) = some [false]
      ∧ oksOf (exec (.write 248#16 8#17) (block c02 0#3 .active)) = some [] := by decide
/-- With SPLIT_PAGE = 0 the page arithmetic has no divisor (42_write_splitter.md R113, log 19): 31 bytes on C64, not 30. -/
theorem test_write_no_page :
    refusalOf (exec (.write 0#16 31#17) unsplit) = some .zeroPageSize
      ∧ oksOf (exec (.write 0#16 30#17) unsplit) = some [] := by decide
/-- Program 1, step 3: the first W-PAGE. -/
theorem test_page_step :
    (after (step page02)).map (fun t => (t.events, t.bytesSent, t.curOff, t.seq, t.wd.length))
      = some ([.wr 0x50#7 1#2 5#16 3#17 [0xA0#8, 0xA1#8, 0xA2#8]], 3#17, 0#8, .wDly, 7) := by decide
/-- Program 1, step 3: the first W-DLY and, with one page left, the last. -/
theorem test_delay_step :
    (after (step { dly02 with events := [] })).map (fun t => (t.events, t.pg, t.seq, t.rspValid))
        = some ([.dly 5#17], 1#17, .wPage, false)
      ∧ (after (step { dly02 with pg := 1#17 })).map (fun t => (t.pg, t.seq, t.rspValid)) = some (0#17, .idle, true) := by
  decide
/-- Row X4. -/
theorem test_read_x4 :
    eventsOf (exec (.read 0x2F0#16 8#17) (block c08 4#3 .active))
      = some [.sel 0x56#7, .rd 0x56#7 1#2 0xF0#16 8#17] := by decide
/-- X2: `READ 8000, 200` on C64 fails; K8: `READ 0, 256` on C02 passes. -/
theorem test_read_bounds :
    oksOf (exec (.read 8000#16 200#17) (block c64 0#3 .active)) = some [false]
      ∧ oksOf (exec (.read 0#16 256#17) (block c02 0#3 .active)) = some [true] := by decide
/-- Row X9, with the transport answering `5A`. -/
theorem test_read1_x9 :
    (after (exec (.read1 0x7FF#16) { block c16 5#3 .active with tr := [0x5A#8, 1#8] })).map
        (fun t => (t.events, t.dar, t.responses.map Response.byte, t.tr))
      = some ([.sel 0x57#7, .rd 0x57#7 1#2 0xFF#16 1#17], 0x57#7, [0x5A#8], [1#8]) := by decide
/-- Row X10. -/
theorem test_read1_x10 : eventsOf (exec (.read1 0x100#16) (block c02 0#3 .active)) = some [] := by decide
/-- Rows P5, P7 and P9. -/
theorem test_wpa :
    eventsOf (exec .wpa (block c02 0#3 .activeWp)) = some [.pin true]
      ∧ eventsOf (exec .wpa (block c02 0#3 .active)) = some []
      ∧ eventsOf (exec .wpa (block c02 0#3 .uninit)) = some [] := by decide
/-- Rows P6, P8 and P10. -/
theorem test_wpc :
    eventsOf (exec .wpc (block c02 0#3 .activeWp)) = some [.pin false]
      ∧ eventsOf (exec .wpc (block c02 0#3 .active)) = some []
      ∧ eventsOf (exec .wpc (block c02 0#3 .uninit)) = some [] := by decide
/-- The reserved command of 95_test_vectors.md 2.8. -/
theorem test_reserved :
    oksOf (step (offered 0xC00000000#36 (block c02 0#3 .active))) = some [false]
      ∧ eventsOf (step (offered 0xC00000000#36 (block c02 0#3 .active))) = some [] := by decide
/-- A silent collaborator and dry write data (93_implementation_defined.md U13, U14). -/
theorem test_stuck :
    faultOf (step { dly02 with evReady := false }) = some .collaboratorSilent
      ∧ faultOf (step { page02 with wd := dataA.take 2 }) = some .writeDataDry
      ∧ faultOf (step (offered 0x400010000#36 { block c02 0#3 .active with evReady := false }))
          = some .collaboratorSilent := by decide

/-! ### A reset inside a step: 00_scope.md R19, 10_state.md R45, R46 (log 20) -/

/-- `s` with a reset that falls on the `emitted`-th event of its next step, `moved` bytes of it across. -/
def cutAt (emitted moved : Nat) (s : State) : State :=
  { s with rstWithin := some { emitted := emitted, moved := moved } }

/-- SEL out and RD not, then RD out with three of its eight bytes answered (row X4). -/
theorem test_cut_read :
    (after (step (cutAt 1 0 { offered 0x4000802F0#36 (block c08 4#3 .active) with tr := dataA }))).map
        (fun t => (t.events, t.seq, t.mode, t.rdat)) = some ([.sel 0x56#7], .idle, .uninit, [])
      ∧ (after (step (cutAt 2 3 { offered 0x4000802F0#36 (block c08 4#3 .active) with tr := dataA }))).map
          (fun t => (t.events, t.rdat, t.tr, t.responses.length))
        = some ([.sel 0x56#7, .rd 0x56#7 1#2 0xF0#16 8#17], [0xA0#8, 0xA1#8, 0xA2#8], dataA.drop 3, 0) := by decide
/-- PINOUT out and PIN not. -/
theorem test_cut_init :
    (after (step (cutAt 1 0 { offered 0#36 (block c02 0#3 .uninit) with wpPresent := true }))).map
        (fun t => (t.events, t.mode, t.cmdIn)) = some ([.pinOut], .uninit, []) := by decide
/-- A WR with two of its three bytes out: the caller's other bytes stay. -/
theorem test_cut_write :
    (after (step (cutAt 1 2 page02))).map (fun t => (t.events, t.wd, t.seq, t.rstWithin))
      = some ([.wr 0x50#7 1#2 5#16 3#17 [0xA0#8, 0xA1#8]], dataA.drop 2, .idle, none) := by decide
/-- A DLY that had not returned: the history alone would show no open write cycle. -/
theorem test_cut_delay :
    (after (step (cutAt 1 0 dly02))).map
        (fun t => (t.seq, writeCycleOpen t.params.tWcMs t.events, t.delayCut, t.cycleOpen))
      = some (.idle, false, true, true) := by decide
/-- A reset ends the wait for a collaborator and for data; one that falls on an event the step does not emit cuts nothing. -/
theorem test_cut_wait :
    (after (step (cutAt 1 0 { dly02 with evReady := false }))).map State.seq = some .idle
      ∧ (after (step (cutAt 1 2 { page02 with wd := dataA.take 2 }))).map State.wd = some []
      ∧ faultOf (step (cutAt 1 3 { page02 with wd := dataA.take 2 })) = some .writeDataDry
      ∧ (after (step (cutAt 2 0 page02))).map State.seq = some .wDly := by decide

/-! ### The reference device: 20_memory.md R62 -/

theorem test_lin : lin 2#2 0x55#7 1#2 0xFA#16 = 0x1FA ∧ lin 0#2 0x50#7 2#2 0x1234#16 = 0x1234 := by decide
/-- Program 1: the device after the first page transaction. -/
theorem test_refRun :
    (refRun c02 0x50#7 { ee := [], tsel := 0x50#7 } dly02.events).map (fun d => (readByte d.ee 6, readByte d.ee 8))
      = some (0xA1#8, 0xFF#8) := by decide
/-- A WR cut short by a reset has no meaning on the reference device. -/
theorem test_refRun_cut :
    refRun c02 0x50#7 { ee := [], tsel := 0x50#7 } [.wr 0x50#7 1#2 5#16 3#17 [0xA0#8, 0xA1#8]] = none := by decide
/-- Row X5: past the overflow region the answer is any value. -/
theorem test_read_hazard :
    refAnswer c08 0x54#7 { ee := [], tsel := 0x54#7 } (.rd 0x54#7 1#2 0xFF#16 2#17) = [some 0xFF#8, none] := by decide

/-! ### Witnesses: for each statement with hypotheses, operands that meet them all, each clause at a boundary -/

theorem witness_EveryWordDecodes :
    0x1FFFFFFFF#36 &&& 0xE00000000#36 = 0x000000000#36 ∧ 0x3FFFFFFFF#36 &&& 0xE00000000#36 = 0x200000000#36
      ∧ 0x5FFFFFFFF#36 &&& 0xE00000000#36 = 0x400000000#36 ∧ 0x7FFFFFFFF#36 &&& 0xE00000000#36 = 0x600000000#36
      ∧ 0x9FFFFFFFF#36 &&& 0xE00000000#36 = 0x800000000#36 ∧ 0xBFFFFFFFF#36 &&& 0xE00000000#36 = 0xA00000000#36
      ∧ 0xDFFFFFFFF#36 &&& 0xE00000000#36 = 0xC00000000#36 ∧ 0xFFFFFFFFF#36 &&& 0xE00000000#36 = 0xE00000000#36 := by
  decide
theorem witness_EncodeGivesCanonicalWord :
    decode 0x7FFFF07FF#36 = .ok (.read1 0x7FF#16) ∧ decode 0x1FFFFFFFF#36 = .ok .init
      ∧ decode 0x3FFFFFFFF#36 = .ok (.write 0xFFFF#16 0x1FFFF#17) := by decide
theorem witness_ChipWordRoundTrip :
    0x02100100#32 &&& 0x1FFFFFFF#32 = 0xE2100100#32 &&& 0x1FFFFFFF#32 := by decide
theorem witness_DeviceAddressSynthesis :
    (6 < 7 ∧ 0 < 7) ∧ (0x57#7 &&& ~~~overflowMask 2#2 = 0x54#7 &&& ~~~overflowMask 2#2)
      ∧ (0x100 / 256) % 2 ^ (2#2).toNat = (0x5FF / 256) % 2 ^ (2#2).toNat := by decide
/-- Both sides of each bound. -/
theorem witness_EncodingFaithfulWhen :
    (c02.wellFormed = true ∧ c02.overflowBits = 0#2 ∧ c02.capacity.toNat ≤ 2 ^ (8 * c02.addressWidth.toNat))
      ∧ ({ c02 with capacity := 257#17 }.wellFormed = true)
      ∧ (c08.wellFormed = true ∧ c08.addressWidth = 1#2 ∧ c08.overflowBits ≠ 0#2
          ∧ c08.capacity.toNat ≤ 2 ^ (8 + c08.overflowBits.toNat))
      ∧ ({ c08 with capacity := 1025#17 }.wellFormed = true) := by decide
theorem witness_UpdateDeviceAddress :
    (block c02 0#3 .active).cfg.overflowBits = 0#2 ∧ (block c08 4#3 .active).cfg.overflowBits ≠ 0#2 := by decide
/-- On both sides of SPLIT_LEN, in the default build and in another, and with one address byte. -/
theorem witness_EffectivePageSizeRule :
    (1 < c64.addressWidth.toNat ∧ Config.defaults.splitLen < (31#17).toNat)
      ∧ ¬(1 < c64.addressWidth.toNat ∧ Config.defaults.splitLen < (30#17).toNat)
      ∧ (1 < c64.addressWidth.toNat ∧ otherParams.splitLen < (9#17).toNat)
      ∧ ¬(1 < c64.addressWidth.toNat ∧ otherParams.splitLen < (8#17).toNat)
      ∧ ¬(1 < c02.addressWidth.toNat ∧ Config.defaults.splitLen < (31#17).toNat) := by decide
theorem witness_EffectivePageSizeRule_write :
    (block c64 0#3 .active).cfg.wellFormed = true ∧ (block c64 0#3 .active).params.splitPage ≠ 0#8
      ∧ Passes (block c64 0#3 .active) 8191#16 1#17 := by unfold Passes; decide
theorem witness_EffectivePageSizeRule_busy :
    page02.rst = false ∧ page02.rstWithin = none ∧ page02.seq ≠ .idle ∧ ∃ t, step page02 = .next t :=
  ⟨rfl, rfl, by decide, _, rfl⟩
theorem witness_PageCountIsCeiling : 1 ≤ 1 ∧ 1 ≤ 65536 ∧ 65536 ≤ 65536 ∧ 254 ≤ 254 := by decide

/-! Reset and the step -/

theorem witness_ResetStep : { dly02 with rst := true }.rst = true := by decide
/-- With collaborators that return and with silent ones: a command that emits nothing, one that emits an event, and one
that is refused. -/
theorem witness_StepRunsPresentedCommand :
    (offered 0x2000A0005#36 (block c02 0#3 .active)).rst = false
      ∧ (offered 0x2000A0005#36 (block c02 0#3 .active)).rstWithin = none
      ∧ (offered 0x2000A0005#36 (block c02 0#3 .active)).seq = .idle
      ∧ (offered 0x2000A0005#36 (block c02 0#3 .active)).cmdIn = [0x2000A0005#36]
      ∧ decode 0x2000A0005#36 = .ok (.write 5#16 10#17)
      ∧ (offered 0x2000A0005#36 (block c02 0#3 .active)).evReady = true := by decide
theorem witness_StepRunsPresentedCommand_silent :
    { offered 0x4000A0005#36 (block c02 0#3 .active) with evReady := false }.evReady = false
      ∧ { offered 0x4000A0005#36 (block c02 0#3 .active) with evReady := false }.rstWithin = none
      ∧ decode 0x4000A0005#36 = .ok (.read 5#16 10#17)
      ∧ ∃ t, exec (.read 5#16 10#17) { block c02 0#3 .active with evReady := false } = .next t := by
  exact ⟨rfl, rfl, by decide, _, rfl⟩
theorem witness_StepRunsPresentedCommand_refused :
    exec .init { block { c02 with pageSize := 0#8 } 0#3 .active with evReady := false } = .refused .illFormedDescriptor :=
  rfl
theorem witness_IdleBlockWaits :
    { State.reset with rspValid := true }.rst = false ∧ State.reset.rstWithin = none ∧ State.reset.cfg.wellFormed = true ∧ State.reset.seq = .idle
      ∧ State.reset.cmdIn = [] := by decide
theorem witness_ReservedCommandAnswersZero :
    (offered 0xC00000000#36 (block c02 0#3 .active)).cfg.wellFormed = true
      ∧ (offered 0xC00000000#36 (block c02 0#3 .active)).rstWithin = none
      ∧ (offered 0xC00000000#36 (block c02 0#3 .active)).cmdIn = [0xC00000000#36]
      ∧ (0xC00000000#36).extractLsb' 33 3 = 6#3 ∧ (0xFFFFFFFFF#36).extractLsb' 33 3 = 7#3 := by decide
/-- In each state, and with a reset that cuts the step. -/
theorem witness_BusyBlockTakesNoCommand :
    (offered 0#36 page02).seq ≠ .idle ∧ (∃ t, step (offered 0#36 page02) = .next t)
      ∧ (∃ t, step (cutAt 1 0 (offered 0#36 page02)) = .next t)
      ∧ ∃ t, step (offered 0#36 dly02) = .next t := ⟨by decide, ⟨_, rfl⟩, ⟨_, rfl⟩, _, rfl⟩
/-- In W_PAGE the stream holds exactly the chunk. -/
theorem witness_SuppliedStepAlwaysCompletes :
    Ready { page02 with wd := dataA.take 3 } ∧ nextChunk { page02 with wd := dataA.take 3 } ≤ 3
      ∧ { page02 with wd := dataA.take 3 }.wd.length = 3 ∧ Ready dly02 ∧ Ready (block c02 0#3 .uninit) := by
  unfold Ready; decide
theorem witness_SilentCollaboratorSticks :
    { page02 with evReady := false }.rst = false ∧ page02.rstWithin = none ∧ page02.cfg.wellFormed = true ∧ page02.seq = .wPage
      ∧ nextChunk { page02 with evReady := false } ≤ { page02 with evReady := false }.wd.length
      ∧ dly02.seq = .wDly ∧ { dly02 with evReady := false }.evReady = false := by decide
/-- One byte short of the chunk. -/
theorem witness_DryWriteDataSticks :
    { page02 with wd := dataA.take 2 }.cfg.wellFormed = true ∧ page02.rstWithin = none ∧ { page02 with wd := dataA.take 2 }.seq = .wPage
      ∧ { page02 with wd := dataA.take 2 }.wd.length + 1 = nextChunk { page02 with wd := dataA.take 2 } := by decide
theorem witness_IllFormedDescriptorRefused :
    (block { c512 with capacity := 65537#17 } 0#3 .active).cfg.wellFormed = false := by decide
/-- Both sides: one byte above SPLIT_LEN, and SPLIT_LEN itself. -/
theorem witness_ZeroPageSizeRefused :
    unsplit.cfg.wellFormed = true ∧ Passes unsplit 8161#16 31#17 ∧ unsplit.params.splitPage = 0#8
      ∧ 1 < unsplit.cfg.addressWidth.toNat ∧ unsplit.params.splitLen < (31#17 : Len).toNat
      ∧ Passes unsplit 8162#16 30#17 ∧ ¬unsplit.params.splitLen < (30#17 : Len).toNat := by unfold Passes; decide

/-! INIT, WPA, WPC -/

theorem witness_InitSetsModeAndPin :
    (block c02 0#3 .uninit).cfg.wellFormed = true ∧ (block c02 0#3 .uninit).wpPresent = false
      ∧ { block c02 0#3 .uninit with wpPresent := true }.wpPresent = true := by decide
theorem witness_SecondInitKeepsModeAndClearsPin :
    (ModeAgrees (block c02 0#3 .activeWp) ∧ (block c02 0#3 .activeWp).mode ≠ .uninit)
      ∧ ModeAgrees (block c02 0#3 .active) ∧ (block c02 0#3 .active).mode ≠ .uninit := by
  unfold ModeAgrees; decide
theorem witness_InitEmitsNoBusEvent : ∃ t, exec .init (block c02 0#3 .activeWp) = .next t := ⟨_, rfl⟩
theorem witness_WpaDrivesPinHigh :
    (block c02 0#3 .activeWp).cfg.wellFormed = true ∧ (block c02 0#3 .activeWp).mode = .activeWp := by decide
theorem witness_WpcDrivesPinLow :
    (block c02 0#3 .activeWp).cfg.wellFormed = true ∧ (block c02 0#3 .activeWp).mode = .activeWp := by decide

/-! Checks, WRITE, READ, READ1 -/

theorem witness_FailedCheckChangesNothing :
    (block c02 0#3 .uninit).cfg.wellFormed = true ∧ (block c02 0#3 .uninit).mode = .uninit
      ∧ (block c02 0#3 .active).cfg.capacity.toNat < (248#16 : Addr).toNat + (9#17 : Len).toNat := by decide
/-- Up to the last byte, and one beyond (rows K4, K5). -/
theorem witness_ChecksPassExactlyInRange :
    (block c02 0#3 .active).cfg.wellFormed = true ∧ (block c02 0#3 .active).params.splitPage ≠ 0#8
      ∧ Passes (block c02 0#3 .active) 248#16 8#17 ∧ ¬Passes (block c02 0#3 .active) 248#16 9#17
      ∧ ¬Passes (block c02 0#3 .uninit) 248#16 8#17 := by unfold Passes; decide
theorem witness_WriteAcceptLatches :
    (block c512 0#3 .active).cfg.wellFormed = true ∧ (block c512 0#3 .active).params.splitPage ≠ 0#8
      ∧ Passes (block c512 0#3 .active) 65535#16 1#17
      ∧ 1 ≤ (1#17 : Len).toNat ∧ Passes (block c512 0#3 .active) 0#16 65536#17
      ∧ ¬Passes (block c512 0#3 .active) 65535#16 2#17 := by unfold Passes; decide
/-- At the end of the device, with an offset and aligned, for both values of the parameter. -/
theorem witness_ZeroLengthWrite :
    Passes (block c02 0#3 .active) 256#16 0#17 ∧ Passes page02empty 5#16 0#17
      ∧ page02empty.params.zeroLenWrite = .formula ∧ (5#16 : Addr).toNat % page02empty.cfg.pageSize.toNat ≠ 0
      ∧ (256#16 : Addr).toNat % c02.pageSize.toNat = 0 ∧ (block c02 0#3 .active).params.zeroLenWrite = .noEvent := by
  unfold Passes; decide
theorem witness_PageStepIssuesTransaction :
    Ready { page02 with wd := dataA.take 3 } ∧ { page02 with wd := dataA.take 3 }.seq = .wPage
      ∧ min (page02.eps.toNat - page02.curOff.toNat) (page02.lenL.toNat - page02.bytesSent.toNat)
          ≤ { page02 with wd := dataA.take 3 }.wd.length := by unfold Ready; decide
/-- The last page and one before it. -/
theorem witness_DelayStepCountsPages :
    Ready dly02 ∧ dly02.seq = .wDly ∧ 1 ≤ dly02.pg.toNat ∧ dly02.pg ≠ 1#17
      ∧ { dly02 with pg := 1#17 }.pg = 1#17 := by unfold Ready; decide
theorem witness_page_invariant : BlockInv page02 := by
  unfold BlockInv DarAgrees ModeAgrees WriteInProgress; decide
theorem witness_delay_invariant : BlockInv dly02 := by
  unfold BlockInv DarAgrees ModeAgrees WriteInProgress; decide
theorem witness_empty_page_invariant : BlockInv page02empty := by
  unfold BlockInv DarAgrees ModeAgrees WriteInProgress; decide
theorem witness_PageTransactionStaysInPage :
    BlockInv page02 ∧ page02.rst = false ∧ page02.rstWithin = none ∧ page02.seq = .wPage ∧ (∃ t, step page02 = .next t)
      ∧ 1 ≤ page02.lenL.toNat ∧ 1 ≤ nextChunk page02 :=
  ⟨witness_page_invariant, rfl, rfl, rfl, ⟨_, rfl⟩, by decide, by decide⟩
theorem witness_PageTransactionStaysInPage_empty :
    BlockInv page02empty ∧ page02empty.seq = .wPage ∧ ∃ t, step page02empty = .next t :=
  ⟨witness_empty_page_invariant, rfl, _, rfl⟩
/-- Program 1: `WRITE 5, 10`, then `READ 5, 10`, on a transport that answers the bytes written. -/
def writeThenRead : State :=
  { block c02 0#3 .active with cmdIn := [0x2000A0005#36, 0x4000A0005#36], wd := dataA, tr := dataA }

/-- Row W17: `WRITE 250, 20` on C08 with bias 4. -/
def writeW17 : State :=
  { offered 0x2001400FA#36 (block c08 4#3 .active) with wd := dataA ++ dataA }

/-- Two pages, without overflow bits and, to the last byte of the data, with them. -/
theorem witness_WriteRunsToCompletion :
    (Ready writeThenRead ∧ writeThenRead.seq = .idle ∧ writeThenRead.cfg.overflowBits = 0#2
        ∧ writeThenRead.cmdIn = [encode (.write 5#16 10#17), encode (.read 5#16 10#17)]
        ∧ Passes writeThenRead 5#16 10#17 ∧ 1 ≤ (10#17 : Len).toNat ∧ (10#17 : Len).toNat ≤ writeThenRead.wd.length)
      ∧ (Ready writeW17 ∧ writeW17.seq = .idle ∧ writeW17.cfg.overflowBits ≠ 0#2
        ∧ writeW17.cmdIn = [encode (.write 250#16 20#17)]
        ∧ Passes writeW17 250#16 20#17 ∧ 1 ≤ (20#17 : Len).toNat ∧ (20#17 : Len).toNat ≤ writeW17.wd.length) := by
  unfold Ready Passes; decide
/-- Its hypotheses are those of `WriteRunsToCompletion`; a single byte is one page. -/
theorem witness_WriteEventCount :
    Ready { offered 0x200010005#36 (block c02 0#3 .active) with wd := [0xA0#8] }
      ∧ (offered 0x200010005#36 (block c02 0#3 .active)).seq = .idle
      ∧ (offered 0x200010005#36 (block c02 0#3 .active)).cmdIn = [encode (.write 5#16 1#17)]
      ∧ Passes { offered 0x200010005#36 (block c02 0#3 .active) with wd := [0xA0#8] } 5#16 1#17
      ∧ 1 ≤ (1#17 : Len).toNat ∧ (1#17 : Len).toNat ≤ [0xA0#8].length
      ∧ (effectivePageSize Config.defaults c02 1#17).toNat = 8 ∧ (1 + 5 % 8 - 1) / 8 + 1 = 1 := by
  unfold Ready Passes; decide
/-- Both branches; the length 0 at the end of the device passes. -/
theorem witness_ReadIssuesOneTransaction :
    (block c08 4#3 .active).cfg.wellFormed = true ∧ Passes (block c08 4#3 .active) 1023#16 1#17
      ∧ Passes (block c08 4#3 .active) 1024#16 0#17 ∧ ¬Passes (block c08 4#3 .active) 1023#16 2#17
      ∧ 0 < (1#17 : Len).toNat ∧ 0 < { block c08 4#3 .active with tr := [0x5A#8] }.tr.length := by
  unfold Passes; decide
/-- Rows X9, X10 and X11. -/
theorem witness_ReadOneReturnsAnswer :
    (block c16 5#3 .active).cfg.wellFormed = true
      ∧ ((block c16 5#3 .active).mode ≠ .uninit ∧ (0x7FF#16 : Addr).toNat + 1 ≤ c16.capacity.toNat)
      ∧ { block c16 5#3 .active with tr := [0x5A#8] }.tr = 0x5A#8 :: []
      ∧ c02.capacity.toNat < (0x100#16 : Addr).toNat + 1 ∧ (block c02 0#3 .uninit).mode = .uninit := by decide

/-! Frames and whole-machine rules -/

theorem witness_InstructionFrame :
    (∃ t, exec .init (block c02 0#3 .activeWp) = .next t) ∧ (∃ t, exec .wpa (block c02 0#3 .activeWp) = .next t)
      ∧ (∃ t, exec .wpc (block c02 0#3 .activeWp) = .next t)
      ∧ (∃ t, exec (.write 5#16 10#17) (block c02 0#3 .active) = .next t)
      ∧ (∃ t, exec (.read 5#16 10#17) (block c08 4#3 .active) = .next t)
      ∧ ∃ t, exec (.read1 5#16) (block c08 4#3 .active) = .next t :=
  ⟨⟨_, rfl⟩, ⟨_, rfl⟩, ⟨_, rfl⟩, ⟨_, rfl⟩, ⟨_, rfl⟩, _, rfl⟩
theorem witness_PageStepStoresOnlyItsChunk :
    BlockInv page02 ∧ page02.cfg.sound page02.params = true ∧ Memory.wf [(5, 0x11#8)] = true ∧ page02.rst = false
      ∧ page02.rstWithin = none ∧ page02.seq = .wPage ∧ page02.cycleOpen = false ∧ (∃ t, step page02 = .next t)
      ∧ nextAddress page02 + nextChunk page02 ≤ 8 ∧ 4 < nextAddress page02 ∧ 0 < nextChunk page02 :=
  ⟨witness_page_invariant, by decide, by decide, rfl, rfl, rfl, by decide, ⟨_, rfl⟩, by decide, by decide, by decide⟩
theorem witness_ModeChangesOnlyByInit :
    (∃ t, step (State.reset.withFetchWord 36 0) = .next t) ∧ ∃ t, step (cutAt 1 0 dly02) = .next t := ⟨⟨_, rfl⟩, _, rfl⟩
theorem witness_ConfigurationIsFixed :
    (∃ t, step { dly02 with rst := true } = .next t) ∧ (∃ t, step (cutAt 1 0 dly02) = .next t)
      ∧ ∃ t, step dly02 = .next t := ⟨⟨_, rfl⟩, ⟨_, rfl⟩, _, rfl⟩
theorem witness_HistoryOnlyGrows :
    (∃ t, step (offered 0x400010005#36 (block c08 4#3 .active)) = .next t)
      ∧ ∃ t, step (cutAt 1 0 (offered 0x400010005#36 (block c08 4#3 .active))) = .next t := ⟨⟨_, rfl⟩, _, rfl⟩
theorem witness_BusAddressesAreInTheFamily :
    DarAgrees (offered 0x400010005#36 (block c08 7#3 .active))
      ∧ (∃ t, step (offered 0x400010005#36 (block c08 7#3 .active)) = .next t)
      ∧ ∃ t, step (cutAt 1 0 (offered 0x400010005#36 (block c08 7#3 .active))) = .next t :=
  ⟨by unfold DarAgrees; decide, ⟨_, rfl⟩, _, rfl⟩
theorem witness_PastEventsDoNotMatter : (∃ t, step page02 = .next t) ∧ ∃ t, step (cutAt 1 1 page02) = .next t :=
  ⟨⟨_, rfl⟩, _, rfl⟩
theorem witness_ActiveModesRunAlike :
    (∃ t, exec (.write 5#16 10#17) { block c02 0#3 .activeWp with mode := .active } = .next t)
      ∧ (∃ t, exec (.read 5#16 10#17) { block c02 0#3 .activeWp with mode := .active } = .next t)
      ∧ ∃ t, exec (.read1 5#16) { block c02 0#3 .activeWp with mode := .active } = .next t := ⟨⟨_, rfl⟩, ⟨_, rfl⟩, _, rfl⟩
/-- In IDLE with each of the three commands, in W_PAGE and in W_DLY. -/
theorem witness_ActiveModesRunAlike_step :
    (decode 0x2000A0005#36 = .ok (.write 5#16 10#17) ∧ decode 0x4000A0005#36 = .ok (.read 5#16 10#17)
        ∧ decode 0x600000005#36 = .ok (.read1 5#16))
      ∧ (∃ t, step { offered 0x2000A0005#36 (block c02 0#3 .activeWp) with mode := .active } = .next t)
      ∧ (∃ t, step { offered 0x4000A0005#36 (block c02 0#3 .activeWp) with mode := .active } = .next t)
      ∧ (∃ t, step { offered 0x600000005#36 (block c02 0#3 .activeWp) with mode := .active } = .next t)
      ∧ (page02.rst = false ∧ page02.seq ≠ .idle ∧ ∃ t, step { page02 with mode := .active } = .next t)
      ∧ (dly02.rst = false ∧ dly02.seq ≠ .idle ∧ ∃ t, step { dly02 with mode := .active } = .next t)
      ∧ ∃ t, step { cutAt 1 0 dly02 with mode := .active } = .next t :=
  ⟨by decide, ⟨_, rfl⟩, ⟨_, rfl⟩, ⟨_, rfl⟩, ⟨rfl, by decide, _, rfl⟩, ⟨rfl, by decide, _, rfl⟩, _, rfl⟩
/-- With no SEL so far, and with one that carried `dar`. -/
theorem witness_DarMirrorsSelection :
    (∃ t, step (offered 0x400010005#36 (block c08 4#3 .active)) = .next t)
      ∧ (block c08 4#3 .active).rstWithin = none
      ∧ (block c08 4#3 .active).cfg.overflowBits ≠ 0#2 ∧ selectedAddress (block c08 4#3 .active).events = none
      ∧ selectedAddress [.sel 0x54#7] = some (block c08 4#3 .active).dar := ⟨⟨_, rfl⟩, rfl, by decide, by decide, by decide⟩
theorem witness_NoWriteCycleOpenInIdle :
    (∃ t, step dly02 = .next t) ∧ dly02.rst = false ∧ dly02.rstWithin = none ∧ dly02.cycleOpen = true
      ∧ dly02.seq = .wDly := ⟨⟨_, rfl⟩, rfl, rfl, by decide, rfl⟩
theorem witness_InvariantHoldsAtReset : { dly02 with rst := true }.rst = true ∧ { dly02 with rst := true }.seq = .wDly := by
  decide
theorem witness_EveryStepKeepsInvariant :
    BlockInv page02 ∧ (∃ t, step page02 = .next t) ∧ BlockInv dly02 ∧ (∃ t, step dly02 = .next t)
      ∧ ∃ t, step (cutAt 1 2 page02) = .next t :=
  ⟨witness_page_invariant, ⟨_, rfl⟩, witness_delay_invariant, ⟨_, rfl⟩, _, rfl⟩

theorem witness_WriteThenReadReturnsWritten :
    (Ready writeThenRead ∧ BlockInv writeThenRead ∧ writeThenRead.cfg.sound writeThenRead.params = true
        ∧ Memory.wf [] = true)
      ∧ writeThenRead.seq = .idle ∧ writeThenRead.cycleOpen = false
      ∧ writeThenRead.cmdIn = [encode (.write 5#16 10#17), encode (.read 5#16 10#17)]
      ∧ (Passes writeThenRead 5#16 10#17 ∧ 1 ≤ (10#17 : Len).toNat ∧ (10#17 : Len).toNat ≤ writeThenRead.wd.length)
      ∧ writeThenRead.cfg.overflowBits = 0#2 := by
  refine ⟨⟨?_, ?_, by decide, by decide⟩, rfl, by decide, by decide, ⟨?_, by decide, by decide⟩, by decide⟩
  · unfold Ready; decide
  · unfold BlockInv DarAgrees ModeAgrees WriteInProgress; decide
  · unfold Passes; decide
/-- The transport's answers are those of the reference device that holds the bytes written. -/
theorem witness_WriteThenReadReturnsWritten_answers :
    (writeThenRead.tr.take 10).map some
      = refAnswer c02 0x50#7 { ee := memWrite [] 5 dataA, tsel := 0x50#7 } (.rd 0x50#7 1#2 5#16 10#17) := by decide
/-- The other alternative of the last hypothesis: overflow bits and one region, up to its last byte (program 2, step 3). -/
theorem witness_WriteThenReadReturnsWritten_region :
    c08.sound Config.defaults = true ∧ c08.overflowBits ≠ 0#2
      ∧ (250#16 : Addr).toNat / 256 = ((250#16 : Addr).toNat + (6#17 : Len).toNat - 1) / 256
      ∧ BlockInv (block c08 4#3 .activeWp) ∧ Passes (block c08 4#3 .activeWp) 250#16 6#17 := by
  unfold BlockInv DarAgrees ModeAgrees WriteInProgress Passes; decide

/-! A reset inside a step -/

/-- From no event to the last one: an INIT between its two events, and before and at the first. -/
theorem witness_ResetCutsStep :
    ∃ u, advance (beginStep (offered 0#36 (block c02 0#3 .activeWp))) = .next u
      ∧ (stepEvents (offered 0#36 (block c02 0#3 .activeWp)) u).length = 2
      ∧ (cutAt 1 0 (offered 0#36 (block c02 0#3 .activeWp))).rst = false
      ∧ (cutAt 1 0 (offered 0#36 (block c02 0#3 .activeWp))).evReady = true := ⟨_, rfl, by decide, rfl, rfl⟩
/-- In W_PAGE, with silent collaborators, the WR outstanding and no byte, or the last one, across. -/
theorem witness_ResetCutsStep_page :
    ∃ u, advance (beginStep (cutAt 1 3 { page02 with evReady := false, wd := dataA.take 3 })) = .next u
      ∧ (stepEvents page02 u).length = 1 ∧ page02.seq = .wPage ∧ min 3 (nextChunk page02) ≤ (dataA.take 3).length
      ∧ min 0 (nextChunk page02) ≤ ([] : List Byte).length := ⟨_, rfl, by decide, rfl, by decide, by decide⟩
/-- In W_DLY, and a READ whose RD is outstanding. -/
theorem witness_ResetCutsStep_rest :
    (∃ u, advance (beginStep (cutAt 1 0 dly02)) = .next u ∧ (stepEvents dly02 u).length = 1)
      ∧ ∃ u, advance (beginStep (cutAt 2 3 (offered 0x4000802F0#36 (block c08 4#3 .active)))) = .next u
          ∧ (stepEvents (block c08 4#3 .active) u).length = 2 := ⟨⟨_, rfl, by decide⟩, _, rfl, by decide⟩
/-- Silent collaborators, and no data at all. -/
theorem witness_ResetEndsWait :
    (cutAt 1 0 { dly02 with evReady := false }).rst = false
      ∧ (cutAt 1 0 { dly02 with evReady := false }).rstWithin = some { emitted := 1, moved := 0 }
      ∧ dly02.cfg.wellFormed = true ∧ dly02.seq ≠ .idle
      ∧ (cutAt 1 0 { page02 with wd := [] }).rstWithin = some { emitted := 1, moved := 0 }
      ∧ page02.cfg.wellFormed = true ∧ page02.seq ≠ .idle := by decide

end Sys2Proof.Tests
end

section
/-!
The operation code in match and mask form (30_encoding.md R72).
-/

namespace Sys2Proof

/-- The mask of R72 keeps the whole operation code. -/
theorem opField_and_opMask (w : CmdWord) : opField (w &&& 0xE00000000#36) = opField w := by
  have hmask : (0xE00000000#36).extractLsb' 33 3 = BitVec.allOnes 3 := by decide
  simp only [opField, BitVec.extractLsb'_and, hmask, BitVec.and_allOnes]

/-- A word that matches under the mask has the operation code of the match. -/
theorem opField_of_masked {w m : CmdWord} (h : w &&& 0xE00000000#36 = m) : opField w = opField m := by
  rw [← h, opField_and_opMask]

/-- Settles O1: a match fixes the operation code, which alone selects the row of the decoder; the two reserved codes are
the ones it rejects (`decode_eq_error`). -/
theorem everyWordDecodes : Obligations.EveryWordDecodes := by
  intro w
  refine ⟨fun h => ?init, fun h => ?write, fun h => ?read, fun h => ?read1, fun h => ?wpa, fun h => ?wpc,
    fun h => ?reserved6, fun h => ?reserved7⟩
  case init =>
    have hop : opField w = 0#3 := opField_of_masked h
    simp [decode, hop]
  case write =>
    have hop : opField w = 1#3 := opField_of_masked h
    simp [decode, hop, addrField, lenField]
  case read =>
    have hop : opField w = 2#3 := opField_of_masked h
    simp [decode, hop, addrField, lenField]
  case read1 =>
    have hop : opField w = 3#3 := opField_of_masked h
    simp [decode, hop, addrField]
  case wpa =>
    have hop : opField w = 4#3 := opField_of_masked h
    simp [decode, hop]
  case wpc =>
    have hop : opField w = 5#3 := opField_of_masked h
    simp [decode, hop]
  case reserved6 =>
    have hop : opField w = 6#3 := opField_of_masked h
    exact decode_eq_error.mpr ⟨.inl hop, by rw [hop]⟩
  case reserved7 =>
    have hop : opField w = 7#3 := opField_of_masked h
    exact decode_eq_error.mpr ⟨.inr hop, by rw [hop]⟩

end Sys2Proof
end

section
/-!
INIT (40_lifecycle_init.md R90 to R92): its one next state field by field, and what its events mean for the pin and for
the selected address.
-/

namespace Sys2Proof.Machine

/-- INIT answers in every mode (40_lifecycle_init.md R90): its next state is `startUp`'s. -/
theorem exec_init_of_wf {s : State} (h : s.cfg.wellFormed = true) : exec .init s = .next (startUp s) :=
  whenWellFormed_of_wf _ h

/-! ### startUp: what it sets, and what it leaves unchanged -/

section
variable (s : State)

@[simp] theorem startUp_mode : (startUp s).mode = if s.wpPresent then .activeWp else .active := by
  unfold startUp; split <;> rfl

@[simp] theorem startUp_events :
    (startUp s).events = s.events ++ if s.wpPresent then [.pinOut, .pin false] else [] := by
  unfold startUp; split <;> simp

@[simp] theorem startUp_dar : (startUp s).dar = s.dar := by unfold startUp; split <;> rfl
@[simp] theorem startUp_seq : (startUp s).seq = s.seq := by unfold startUp; split <;> rfl
@[simp] theorem startUp_cmdIn : (startUp s).cmdIn = s.cmdIn := by unfold startUp; split <;> rfl

theorem sameSetting_startUp : SameSetting s (startUp s) := by unfold startUp; split <;> simp [SameSetting]
theorem sameSplitter_startUp : SameSplitter s (startUp s) := by unfold startUp; split <;> simp [SameSplitter]
theorem sameData_startUp : SameData s (startUp s) := by unfold startUp; split <;> simp [SameData]
theorem responded_startUp : Responded true s (startUp s) := by unfold startUp; split <;> simp [Responded]

end

/-- What INIT appends only configures and drives the pin (40_lifecycle_init.md R92). -/
theorem startUp_appends_pin_events (s : State) :
    ∃ es, (startUp s).events = s.events ++ es ∧ ∀ e ∈ es, e = .pinOut ∨ ∃ level, e = .pin level := by
  refine ⟨_, startUp_events s, ?_⟩
  cases s.wpPresent with
  | true => simp
  | false => simp

/-! ### Reading the history after more events (10_state.md R36) -/

/-- Only a SEL moves the transport's selection (10_state.md R36 (a)). -/
theorem selectedAddress_append_of_no_sel {h es : List Event} (hes : ∀ da, Event.sel da ∉ es) :
    selectedAddress (h ++ es) = selectedAddress h := by
  induction es generalizing h with
  | nil => simp
  | cons e es ih =>
    have hrest : ∀ da, Event.sel da ∉ es := fun da hm => hes da (List.mem_cons_of_mem e hm)
    have hone : selectedAddress (h ++ [e]) = selectedAddress h := by
      cases e with
      | sel da => exact absurd List.mem_cons_self (hes da)
      | _ => simp [selectedAddress]
    rw [List.append_cons, ih hrest, hone]

/-- The level the pin holds is the one driven last (10_state.md R36 (b)). -/
theorem pinLevel_of_getLast? {h : List Event} {level : Bool} (hl : h.getLast? = some (.pin level)) :
    pinLevel h = some level := by
  obtain ⟨before, rfl⟩ := List.getLast?_eq_some_iff.mp hl
  simp [pinLevel]

/-- The pin is an output once a PINOUT has been emitted (10_state.md R36 (b)). -/
theorem pinIsOutput_of_mem {h : List Event} (hm : Event.pinOut ∈ h) : pinIsOutput h = true := by
  simpa [pinIsOutput] using hm

end Sys2Proof.Machine
end

section
/-!
The statements about INIT.
-/

namespace Sys2Proof

open Machine

/-- Settles O26: `startUp` field by field, with the pin and without. -/
theorem initSetsModeAndPin : Obligations.InitSetsModeAndPin := by
  intro s hw
  refine ⟨by decide, startUp s, exec_init_of_wf hw, fun hp => ?pin, fun hp => ?noPin, sameSetting_startUp s,
    sameSplitter_startUp s, startUp_dar s, startUp_seq s, sameData_startUp s, startUp_cmdIn s, responded_startUp s⟩
  case pin => simp [hp]
  case noPin => simp [hp]

/-- Settles O27: the mode says whether there is a pin (`ModeAgrees`), so INIT sets the same mode again; with a pin its
two events are appended once more, and they leave the pin an output driven low. -/
theorem secondInitKeepsModeAndClearsPin : Obligations.SecondInitKeepsModeAndClearsPin := by
  intro s hw ⟨hactive, hactiveWp⟩ hm
  refine ⟨startUp s, exec_init_of_wf hw, ?mode, fun hwp => ?pin, fun ha => ?noPin⟩
  case mode =>
    cases hmode : s.mode with
    | uninit => exact absurd hmode hm
    | active => simp [hactive hmode]
    | activeWp => simp [hactiveWp hmode]
  case pin =>
    have hev : (startUp s).events = s.events ++ [.pinOut, .pin false] := by simp [hactiveWp hwp]
    rw [hev]
    exact ⟨rfl, pinIsOutput_of_mem (by simp), pinLevel_of_getLast? (by simp)⟩
  case noPin => simp [hactive ha]

/-- Settles O28: what INIT appends only configures and drives the pin, and no such event moves the selection. -/
theorem initEmitsNoBusEvent : Obligations.InitEmitsNoBusEvent := by
  intro s t h
  obtain ⟨-, rfl⟩ : s.cfg.wellFormed = true ∧ t = startUp s := exec_next h
  obtain ⟨es, hev, hpin⟩ := startUp_appends_pin_events s
  have hnosel : ∀ da, Event.sel da ∉ es := fun da hda => by simpa using hpin _ hda
  refine ⟨⟨es, hev, hpin⟩, ?_, startUp_dar s⟩
  rw [hev, selectedAddress_append_of_no_sel hnosel]

end Sys2Proof
end

section
/-!
The device address bit by bit (41_address_encoder.md R97, R98), what it depends on, `UpdateDA` whole (R99),
and the register address in its two forms (R100).
-/

namespace Sys2Proof.Machine

/-! ### ovf and synth bit by bit -/

/-- The overflow field holds `ob` bits, bit 8 of the address first (41_address_encoder.md R97). -/
theorem getLsbD_ovf (ob : BitVec 2) (a : Nat) {k : Nat} (hk : k < 7) :
    (ovf ob a).getLsbD k = (a.testBit (8 + k) && decide (k < ob.toNat)) := by
  have hshift : (a / 256).testBit k = a.testBit (8 + k) := by
    rw [Nat.add_comm]
    exact Nat.testBit_div_two_pow (n := 8) a k
  rw [ovf, BitVec.getLsbD_and, getLsbD_overflowMask ob hk, BitVec.getLsbD_ofNat, hshift]
  simp [hk]

/-- Below `ob` the device address holds the address's bits, from there on those of `base` (41_address_encoder.md R98). -/
theorem getLsbD_synth (base : DevAddr) (ob : BitVec 2) (a : Nat) {k : Nat} (hk : k < 7) :
    (synth base ob a).getLsbD k = if k < ob.toNat then a.testBit (8 + k) else base.getLsbD k := by
  rw [synth, BitVec.getLsbD_or, BitVec.getLsbD_and, BitVec.getLsbD_not, getLsbD_overflowMask ob hk, getLsbD_ovf ob a hk]
  by_cases hfield : k < ob.toNat
  · simp [hfield]
  · simp [hfield, hk]

/-! ### What synth depends on -/

/-- The overflow field reaches at most bit 2, so bits 6 to 3 are those of `base` (41_address_encoder.md R98 (b)). -/
theorem synth_high_bits (base : DevAddr) (ob : BitVec 2) (a : Nat) :
    (synth base ob a).extractLsb' 3 4 = base.extractLsb' 3 4 := by
  apply BitVec.eq_of_getLsbD_eq
  intro k hk
  have habove : ¬3 + k < ob.toNat := by have := ob.isLt; omega
  simp only [BitVec.getLsbD_extractLsb', getLsbD_synth base ob a (show 3 + k < 7 by omega), habove, if_false]

/-- The bits of `base` under the mask are discarded (41_address_encoder.md R98 (c)). -/
theorem synth_congr_base {base base' : DevAddr} {ob : BitVec 2} (a : Nat)
    (h : base' &&& ~~~overflowMask ob = base &&& ~~~overflowMask ob) : synth base' ob a = synth base ob a := by
  rw [synth, synth, h]

/-- The device address depends on the address only through its overflow field (41_address_encoder.md R98). -/
theorem synth_congr_ovf (base : DevAddr) {ob : BitVec 2} {a b : Nat} (h : ovf ob a = ovf ob b) :
    synth base ob a = synth base ob b := by
  rw [synth, synth, h]

/-! ### updateDA whole -/

/-- Without overflow bits `UpdateDA` does nothing (41_address_encoder.md R99). -/
theorem updateDA_of_zero (a : Nat) {s : State} (h : s.cfg.overflowBits = 0#2) : updateDA a s = s :=
  if_pos h

/-- With overflow bits `UpdateDA` writes `dar` and selects it (41_address_encoder.md R99). -/
theorem updateDA_of_ne (a : Nat) {s : State} (h : s.cfg.overflowBits ≠ 0#2) :
    updateDA a s = emit (.sel (synth s.base s.cfg.overflowBits a)) { s with dar := synth s.base s.cfg.overflowBits a } :=
  if_neg h

/-! ### regAddr in its two forms -/

/-- The one-byte form (41_address_encoder.md R100). -/
theorem regAddr_one_toNat (a : Nat) : (regAddr 1#2 a).toNat = a % 256 := by
  have hfits : a % 256 < 2 ^ 16 := by omega
  rw [regAddr, if_pos rfl, BitVec.toNat_ofNat, Nat.mod_eq_of_lt hfits]

/-- The two-byte form (41_address_encoder.md R100). -/
theorem regAddr_two_toNat (a : Nat) : (regAddr 2#2 a).toNat = a % 65536 := by
  rw [regAddr, if_neg (by decide), BitVec.toNat_ofNat]

end Sys2Proof.Machine
end

section
/-!
The statements about the address encoder.
-/

namespace Sys2Proof

open Machine

/-- Settles O7: four closed values of the definition. -/
theorem overflowMaskValues : Obligations.OverflowMaskValues := by
  unfold Obligations.OverflowMaskValues
  decide

/-- Settles O8: the mask is a remainder by `2^ob`. -/
theorem overflowFieldOfAddress : Obligations.OverflowFieldOfAddress := ovf_toNat

/-- Settles O9: every bit by `getLsbD_synth`, from which the high bits follow; equal overflow fields as numbers are equal
fields. -/
theorem deviceAddressSynthesis : Obligations.DeviceAddressSynthesis := by
  intro base ob a
  refine ⟨rfl, fun k hk => getLsbD_synth base ob a hk, ?noField, synth_high_bits base ob a,
    fun base' h => synth_congr_base a h, fun b h => ?sameField⟩
  case noField =>
    rintro rfl
    exact synth_zero base a
  case sameField =>
    have hovf : (ovf ob a).toNat = (ovf ob b).toNat := by rw [ovf_toNat, ovf_toNat, h]
    exact synth_congr_ovf base (BitVec.eq_of_toNat_eq hovf)

/-- Settles O10: the register address as a number, and the events of `issueWrite` and `issueRead`, whose device address is
`dar` after `UpdateDA`. -/
theorem registerAddressForms : Obligations.RegisterAddressForms := by
  refine ⟨fun a => ⟨regAddr_one_toNat a, regAddr_two_toNat a⟩, fun a k s => ?write, fun a n s => ?read⟩
  case write => exact ⟨_, _, issueWrite_events a k s⟩
  case read => exact ⟨_, issueRead_events a n s⟩

/-- Settles O12: the two branches of `UpdateDA`. -/
theorem updateDeviceAddress : Obligations.UpdateDeviceAddress :=
  fun a _ => ⟨updateDA_of_zero a, updateDA_of_ne a⟩

end Sys2Proof
end

section
/-!
The accepting step of a WRITE field by field, and the splitter's page count and chunk as numbers that fit their
registers (42_write_splitter.md R110 to R116).
-/

namespace Sys2Proof.Machine

/-! ### The effective page size in its two cases -/

/-- A long WRITE to a device with two address bytes is split with SPLIT_PAGE (42_write_splitter.md R112). -/
theorem effectivePageSize_of_split {p : Params} {c : Descriptor} {len : Len}
    (h : 1 < c.addressWidth.toNat ∧ p.splitLen < len.toNat) : effectivePageSize p c len = p.splitPage :=
  if_pos h

/-- Any other WRITE is split with the device's own page size (42_write_splitter.md R112). -/
theorem effectivePageSize_of_not_split {p : Params} {c : Descriptor} {len : Len}
    (h : ¬(1 < c.addressWidth.toNat ∧ p.splitLen < len.toNat)) : effectivePageSize p c len = c.pageSize :=
  if_neg h

/-! ### The page count -/

/-- With at least one byte to send the page count is the formula's, whatever ZERO_LEN_WRITE is
(42_write_splitter.md R114). -/
theorem pageCount_of_pos (z : ZeroLenWrite) (eps off : Nat) {len : Nat} (h : 1 ≤ len) :
    pageCount z eps off len = (len + off - 1) / eps + 1 := by
  rw [pageCount, if_neg (by omega), pagesByFormula, if_neg (by omega)]

/-- The page count is at most the span. -/
theorem pageCount_le (z : ZeroLenWrite) (eps off len : Nat) : pageCount z eps off len ≤ len + off := by
  unfold pageCount
  split
  · exact Nat.zero_le _
  · exact pagesByFormula_le eps off len

/-! ### The chunk -/

/-- Sending the chunk overflows no byte count (42_write_splitter.md R116). -/
theorem bytesSent_add_nextChunk_lt (s : State) : s.bytesSent.toNat + nextChunk s < 2 ^ 17 := by
  have hlen := s.lenL.isLt
  have hsent := s.bytesSent.isLt
  have hchunk : nextChunk s ≤ s.lenL.toNat - s.bytesSent.toNat := Nat.min_le_right ..
  omega

/-! ### The checks -/

/-- Checks that do not pass give a reason (42_write_splitter.md R111). -/
theorem preflight_of_not_passes {s : State} {addr : Addr} {len : Len} (h : ¬Passes s addr len) :
    ∃ r, preflight s addr len = some r :=
  Option.ne_none_iff_exists'.mp fun hn => h (preflight_none.mp hn)

section
variable (addr : Addr) (len : Len) (s : State)

/-! ### latchWrite: the two computed registers hold what was computed -/

/-- The offset is below the page size, so it fits its register (42_write_splitter.md R113). -/
theorem latchWrite_curOff_toNat (he : 1 ≤ (effectivePageSize s.params s.cfg len).toNat) :
    (latchWrite addr len s).curOff.toNat = addr.toNat % (effectivePageSize s.params s.cfg len).toNat := by
  have hoff : addr.toNat % (effectivePageSize s.params s.cfg len).toNat < 2 ^ 8 :=
    (Nat.mod_lt _ he).trans (BitVec.isLt _)
  rw [latchWrite_curOff, BitVec.toNat_ofNat, pageOffset, Nat.mod_eq_of_lt hoff]

/-- A range inside the device has at most as many pages as the device has bytes, so the count fits its register
(42_write_splitter.md R114). -/
theorem latchWrite_pg_toNat (hw : s.cfg.wellFormed = true) (hp : Passes s addr len) :
    (latchWrite addr len s).pg.toNat = pageCount s.params.zeroLenWrite (effectivePageSize s.params s.cfg len).toNat
      (addr.toNat % (effectivePageSize s.params s.cfg len).toNat) len.toNat := by
  obtain ⟨-, hrange⟩ := hp
  have hcap := capacity_le hw
  have hoff := Nat.mod_le addr.toNat (effectivePageSize s.params s.cfg len).toNat
  have hpages := pageCount_le s.params.zeroLenWrite (effectivePageSize s.params s.cfg len).toNat
    (addr.toNat % (effectivePageSize s.params s.cfg len).toNat) len.toNat
  rw [latchWrite_pg, BitVec.toNat_ofNat, pageOffset, Nat.mod_eq_of_lt (by omega)]

/-! ### acceptWrite: what it sets, and what it leaves unchanged -/

/-- With a page to issue, accepting a WRITE begins the page loop (42_write_splitter.md R121). -/
theorem acceptWrite_of_pg_ne (h : (latchWrite addr len s).pg ≠ 0#17) :
    acceptWrite addr len s = setSeq .wPage (latchWrite addr len s) :=
  if_neg h

@[simp] theorem acceptWrite_addrL : (acceptWrite addr len s).addrL = addr := by unfold acceptWrite; split <;> rfl
@[simp] theorem acceptWrite_lenL : (acceptWrite addr len s).lenL = len := by unfold acceptWrite; split <;> rfl
@[simp] theorem acceptWrite_eps : (acceptWrite addr len s).eps = effectivePageSize s.params s.cfg len := by
  unfold acceptWrite; split <;> rfl
@[simp] theorem acceptWrite_curOff : (acceptWrite addr len s).curOff = (latchWrite addr len s).curOff := by
  unfold acceptWrite; split <;> rfl
@[simp] theorem acceptWrite_bytesSent : (acceptWrite addr len s).bytesSent = 0#17 := by
  unfold acceptWrite; split <;> rfl
@[simp] theorem acceptWrite_pg : (acceptWrite addr len s).pg = (latchWrite addr len s).pg := by
  unfold acceptWrite; split <;> rfl
@[simp] theorem acceptWrite_events : (acceptWrite addr len s).events = s.events := by
  unfold acceptWrite; split <;> rfl
@[simp] theorem acceptWrite_mode : (acceptWrite addr len s).mode = s.mode := by unfold acceptWrite; split <;> rfl
@[simp] theorem acceptWrite_dar : (acceptWrite addr len s).dar = s.dar := by unfold acceptWrite; split <;> rfl
@[simp] theorem acceptWrite_cmdIn : (acceptWrite addr len s).cmdIn = s.cmdIn := by unfold acceptWrite; split <;> rfl

theorem sameSetting_acceptWrite : SameSetting s (acceptWrite addr len s) := by
  unfold acceptWrite; split <;> simp [SameSetting]
theorem sameData_acceptWrite : SameData s (acceptWrite addr len s) := by
  unfold acceptWrite; split <;> simp [SameData]

end

end Sys2Proof.Machine
end

section
/-!
The statements about the splitter's arithmetic, the accepting step and the step W-PAGE.
-/

namespace Sys2Proof

open Machine

/-- Settles O13: the two cases of the definition; the accepting step latches it, and neither sequencer step of a WRITE in
progress (`StepEffect`) writes the register. -/
theorem effectivePageSizeRule : Obligations.EffectivePageSizeRule := by
  refine ⟨fun p c len => ⟨effectivePageSize_of_split, effectivePageSize_of_not_split⟩, fun c len => rfl,
    ?latched, ?kept⟩
  case latched =>
    intro s addr len hw hsplit hp
    exact ⟨_, exec_write_of_passes (preflight_none.mpr hp) hw hsplit, acceptWrite_eps addr len s⟩
  case kept =>
    intro s t hr hn hbusy h
    obtain ⟨-, heffect, -⟩ := step_next_uncut hr hn h
    rcases heffect with ⟨hidle, -⟩ | ⟨hidle, -⟩ | ⟨hidle, -⟩ | ⟨-, rfl⟩ | ⟨-, rfl⟩
    · exact absurd hidle hbusy
    · exact absurd hidle hbusy
    · exact absurd hidle hbusy
    · simp
    · split <;> simp

/-- Settles O14: the formula is one more than a floor division, whose quotient `q` of the last byte's position `d` has
`q * eps ≤ d < (q + 1) * eps`. -/
theorem pageCountIsCeiling : Obligations.PageCountIsCeiling := by
  intro z eps off len he hl
  have hbelow : (len + off - 1) / eps * eps ≤ len + off - 1 := Nat.div_mul_le_self ..
  have habove : len + off - 1 < ((len + off - 1) / eps + 1) * eps := Nat.lt_mul_of_div_lt (Nat.lt_succ_self _) he
  rw [pageCount_of_pos z eps off hl, Nat.add_sub_cancel]
  exact ⟨rfl, Nat.le_add_left .., by omega, by omega, by omega⟩

/-- Settles O33: `acceptWrite` field by field when the checks pass, with at least one page for at least one byte; a failed
check only answers. -/
theorem writeAcceptLatches : Obligations.WriteAcceptLatches := by
  intro s addr len hw hsplit
  by_cases hp : Passes s addr len
  case pos =>
    refine ⟨_, exec_write_of_passes (preflight_none.mpr hp) hw hsplit, fun _ => ?latched, fun hn => absurd hp hn,
      acceptWrite_events .., sameSetting_acceptWrite .., acceptWrite_mode .., acceptWrite_dar ..,
      sameData_acceptWrite .., acceptWrite_cmdIn ..⟩
    have hoff := latchWrite_curOff_toNat addr len s (one_le_effectivePageSize len hw hsplit)
    refine ⟨acceptWrite_addrL .., acceptWrite_lenL .., acceptWrite_eps .., by simpa using hoff,
      acceptWrite_bytesSent .., fun hl => ?loop⟩
    have hpg := latchWrite_pg_toNat addr len s hw hp
    rw [pageCount_of_pos _ _ _ hl] at hpg
    have hne : (latchWrite addr len s).pg ≠ 0#17 := one_le_toNat.mp (by rw [hpg]; exact Nat.le_add_left ..)
    rw [acceptWrite_of_pg_ne addr len s hne]
    exact ⟨hpg, rfl, rfl, rfl⟩
  case neg =>
    obtain ⟨r, hr⟩ := preflight_of_not_passes hp
    refine ⟨_, exec_write_of_fails hr hw, fun h => absurd h hp, ?frame⟩
    simp [SameSplitter, SameSetting, SameData]

/-- Settles O35: `advancePage` after `issueWrite`, field by field; the byte count does not overflow. -/
theorem pageStepIssuesTransaction : Obligations.PageStepIssuesTransaction := by
  intro s hready hseq hdata
  refine ⟨_, step_of_page hready hseq hdata, ?dar, ?events, ?wd, ?bytesSent, ?rest⟩
  case dar => exact issueWrite_dar _ (nextChunk s) _
  case events => simp [nextAddress, nextChunk]
  case wd => exact issueWrite_wd ..
  case bytesSent =>
    rw [advancePage_bytesSent, BitVec.toNat_ofNat, issueWrite_bytesSent, beginStep_bytesSent,
      Nat.mod_eq_of_lt (bytesSent_add_nextChunk_lt s), nextChunk]
  case rest => simp [SameSetting, Silent]

end Sys2Proof
end

section
/-!
READ and READ1 field by field (43_read.md R131 to R136): what the transport answers, the next state when the checks pass
and when they do not, and the two command words.
-/

namespace Sys2Proof.Machine

/-! ### The transport's answer -/

/-- Where the transport's answers are scripted, they are the bytes read, in order (43_read.md R133). -/
theorem transportAnswer_getElem? {n k : Nat} {s : State} (hn : k < n) (hk : k < s.tr.length) :
    (transportAnswer n s)[k]? = s.tr[k]? := by
  have hscript : k < (s.tr.take n).length := by rw [List.length_take]; omega
  rw [transportAnswer, List.getElem?_append_left hscript, List.getElem?_take_of_lt hn]

/-! ### READ and READ1 after their checks (43_read.md R131) -/

section
variable {s : State} {addr : Addr}

/-- A READ that passes its checks is performed (43_read.md R132). -/
theorem exec_read_of_passes {len : Len} (h : Passes s addr len) (hw : s.cfg.wellFormed = true) :
    exec (.read addr len) s = .next (performRead addr len s) := by
  simp only [exec, execRead, preflight_none.mpr h]
  exact whenWellFormed_of_wf _ hw

/-- A READ that fails a check ends at once (43_read.md R131). -/
theorem exec_read_of_fails {len : Len} (h : ¬Passes s addr len) (hw : s.cfg.wellFormed = true) :
    exec (.read addr len) s = .next (complete false s) := by
  obtain ⟨r, hr⟩ := preflight_of_not_passes h
  simp only [exec, execRead, hr, raiseFail_eq]
  exact whenWellFormed_of_wf _ hw

/-- A READ1 that passes its checks is performed (43_read.md R135). -/
theorem exec_read1_of_passes (h : Passes s addr 1#17) (hw : s.cfg.wellFormed = true) :
    exec (.read1 addr) s = .next (performRead1 addr s) := by
  simp only [exec, execRead1, preflight_none.mpr h]
  exact whenWellFormed_of_wf _ hw

/-- A READ1 that fails a check only responds (43_read.md R135). -/
theorem exec_read1_of_fails (h : ¬Passes s addr 1#17) (hw : s.cfg.wellFormed = true) :
    exec (.read1 addr) s = .next (failRead1 s) := by
  obtain ⟨r, hr⟩ := preflight_of_not_passes h
  simp only [exec, execRead1, hr]
  exact whenWellFormed_of_wf _ hw

end

/-! ### performRead: what it sets, and what it leaves unchanged -/

section
variable (addr : Addr) (len : Len) (s : State)

@[simp] theorem performRead_dar : (performRead addr len s).dar = updatedDar s.cfg s.base s.dar addr.toNat := by
  simp [performRead]
@[simp] theorem performRead_events :
    (performRead addr len s).events = s.events ++ selectEvents s.cfg s.base addr.toNat
      ++ [.rd (updatedDar s.cfg s.base s.dar addr.toNat) s.cfg.addressWidth
            (regAddr s.cfg.addressWidth addr.toNat) len] := by
  simp [performRead]
@[simp] theorem performRead_rdat : (performRead addr len s).rdat = s.rdat ++ transportAnswer len.toNat s := by
  simp [performRead]
@[simp] theorem performRead_tr : (performRead addr len s).tr = s.tr.drop len.toNat := by simp [performRead]
@[simp] theorem performRead_mode : (performRead addr len s).mode = s.mode := by simp [performRead]
@[simp] theorem performRead_seq : (performRead addr len s).seq = s.seq := by simp [performRead]
@[simp] theorem performRead_wd : (performRead addr len s).wd = s.wd := by simp [performRead]
@[simp] theorem performRead_cmdIn : (performRead addr len s).cmdIn = s.cmdIn := by simp [performRead]

theorem sameSetting_performRead : SameSetting s (performRead addr len s) := by simp [performRead, SameSetting]
theorem sameSplitter_performRead : SameSplitter s (performRead addr len s) := by simp [performRead, SameSplitter]
theorem responded_performRead : Responded true s (performRead addr len s) := by simp [performRead, Responded]

/-- A READ delivers as many bytes as it asks for, the scripted answers in order (43_read.md R133). -/
theorem performRead_delivers :
    ∃ bytes : List Byte, bytes.length = len.toNat ∧ (performRead addr len s).rdat = s.rdat ++ bytes
      ∧ ∀ k, k < len.toNat → k < s.tr.length → bytes[k]? = s.tr[k]? :=
  ⟨transportAnswer len.toNat s, transportAnswer_length .., performRead_rdat .., fun _ => transportAnswer_getElem?⟩

/-! ### performRead1: what it sets, and what it leaves unchanged -/

@[simp] theorem performRead1_dar : (performRead1 addr s).dar = updatedDar s.cfg s.base s.dar addr.toNat := by
  simp [performRead1]
@[simp] theorem performRead1_events :
    (performRead1 addr s).events = s.events ++ selectEvents s.cfg s.base addr.toNat
      ++ [.rd (updatedDar s.cfg s.base s.dar addr.toNat) s.cfg.addressWidth
            (regAddr s.cfg.addressWidth addr.toNat) 1#17] := by
  simp [performRead1]
@[simp] theorem performRead1_tr : (performRead1 addr s).tr = s.tr.drop 1 := by simp [performRead1]
@[simp] theorem performRead1_rspValid : (performRead1 addr s).rspValid = true := rfl
@[simp] theorem performRead1_mode : (performRead1 addr s).mode = s.mode := by simp [performRead1]
@[simp] theorem performRead1_seq : (performRead1 addr s).seq = s.seq := by simp [performRead1]
@[simp] theorem performRead1_wd : (performRead1 addr s).wd = s.wd := by simp [performRead1]
@[simp] theorem performRead1_rdat : (performRead1 addr s).rdat = s.rdat := by simp [performRead1]
@[simp] theorem performRead1_cmdIn : (performRead1 addr s).cmdIn = s.cmdIn := by simp [performRead1]

theorem sameSetting_performRead1 : SameSetting s (performRead1 addr s) := by simp [performRead1, SameSetting]
theorem sameSplitter_performRead1 : SameSplitter s (performRead1 addr s) := by simp [performRead1, SameSplitter]

/-- READ1 responds once, with the byte the transport answers (43_read.md R135). -/
theorem performRead1_responds :
    ∃ r, (performRead1 addr s).responses = s.responses ++ [r] ∧ ∀ b rest, s.tr = b :: rest → r.byte = b := by
  rw [performRead1, completeByte_responses, takeAnswer_responses, issueRead_responses]
  refine ⟨_, rfl, fun b rest htr => ?answer⟩
  case answer => simp [transportAnswer, htr]

/-! ### failRead1: the response alone -/

theorem failRead1_responds : ∃ r, (failRead1 s).responses = s.responses ++ [r] := ⟨_, rfl⟩

theorem sameRegisters_failRead1 : SameRegisters s (failRead1 s) := by
  simp [failRead1, SameRegisters, SameSetting, SameSplitter]
theorem sameData_failRead1 : SameData s (failRead1 s) := by simp [failRead1, SameData]

end

end Sys2Proof.Machine

namespace Sys2Proof

/-! ### The command words (30_encoding.md R72) -/

theorem encode_read (addr : Addr) (len : Len) :
    encode (.read addr len) = 0x400000000#36 ||| len.setWidth 36 <<< 16 ||| addr.setWidth 36 := rfl

theorem encode_read1 (addr : Addr) : encode (.read1 addr) = 0x600000000#36 ||| addr.setWidth 36 := by
  have hop : (3#3).setWidth 36 <<< 33 ||| (0#17).setWidth 36 <<< 16 = 0x600000000#36 := by decide
  rw [encode, packCommand, hop]

end Sys2Proof
end

section
/-!
The statements about READ and READ1.
-/

namespace Sys2Proof

open Machine

/-- Settles O39: `performRead` field by field when the checks pass; a failed check only answers. -/
theorem readIssuesOneTransaction : Obligations.ReadIssuesOneTransaction := by
  intro s addr len hw
  refine ⟨encode_read addr len, ?_⟩
  by_cases hp : Passes s addr len
  case pos =>
    refine ⟨_, exec_read_of_passes hp hw, fun _ => ⟨performRead_dar .., ?events, performRead_delivers ..,
      performRead_tr .., responded_performRead ..⟩, fun hn => absurd hp hn, sameSetting_performRead ..,
      sameSplitter_performRead .., performRead_mode .., performRead_seq .., performRead_wd .., performRead_cmdIn ..⟩
    case events => rw [performRead_events, performRead_dar]
  case neg =>
    refine ⟨_, exec_read_of_fails hp hw, fun h => absurd h hp, fun _ => ?silent, ?frame⟩
    case silent => simp [Responded]
    case frame => simp [SameSetting, SameSplitter]

/-- Settles O40: READ1 checks a range of one byte; `performRead1` field by field when it passes, and the response
alone (`failRead1`) when it does not. -/
theorem readOneReturnsAnswer : Obligations.ReadOneReturnsAnswer := by
  intro s addr hw
  refine ⟨encode_read1 addr, ?_⟩
  by_cases hp : Passes s addr 1#17
  case pos =>
    obtain ⟨r, hr, hbyte⟩ := performRead1_responds addr s
    refine ⟨_, r, exec_read1_of_passes hp hw, hr, performRead1_rspValid .., fun _ => ⟨performRead1_dar .., ?events,
      hbyte, performRead1_tr ..⟩, fun hfail => ?checks, sameSetting_performRead1 .., sameSplitter_performRead1 ..,
      performRead1_mode .., performRead1_seq .., performRead1_wd .., performRead1_rdat .., performRead1_cmdIn ..⟩
    case events => rw [performRead1_events, performRead1_dar]
    case checks =>
      obtain ⟨hmode, hrange⟩ := hp
      rcases hfail with hu | hout
      · exact absurd hu hmode
      · exact absurd hrange (Nat.not_le.mpr hout)
  case neg =>
    obtain ⟨r, hr⟩ := failRead1_responds s
    obtain ⟨hsetting, hsplitter, hmode, hdar, hseq⟩ := sameRegisters_failRead1 s
    obtain ⟨hwd, htr, hrdat⟩ := sameData_failRead1 s
    exact ⟨_, r, exec_read1_of_fails hp hw, hr, rfl, fun h => absurd h hp, fun _ => ⟨hdar, rfl, htr⟩,
      hsetting, hsplitter, hmode, hseq, hwd, hrdat, rfl⟩

end Sys2Proof
end

section
/-!
WPA and WPC (44_write_protect.md R140, R141): their one next state, `drivePin`, field by field at either level.
-/

namespace Sys2Proof.Machine

/-- WPA answers in every mode (44_write_protect.md R140). -/
theorem exec_wpa_of_wf {s : State} (h : s.cfg.wellFormed = true) : exec .wpa s = .next (drivePin true s) :=
  whenWellFormed_of_wf _ h

/-- WPC answers in every mode (44_write_protect.md R141). -/
theorem exec_wpc_of_wf {s : State} (h : s.cfg.wellFormed = true) : exec .wpc s = .next (drivePin false s) :=
  whenWellFormed_of_wf _ h

/-! ### drivePin: what it sets, and what it leaves unchanged -/

section
variable (level : Bool) (s : State)

@[simp] theorem drivePin_events :
    (drivePin level s).events = s.events ++ if s.mode = .activeWp then [.pin level] else [] := by
  unfold drivePin; split <;> simp

@[simp] theorem drivePin_cmdIn : (drivePin level s).cmdIn = s.cmdIn := by unfold drivePin; split <;> rfl

theorem sameRegisters_drivePin : SameRegisters s (drivePin level s) := by
  unfold drivePin; split <;> simp [SameRegisters, SameSetting, SameSplitter]
theorem sameData_drivePin : SameData s (drivePin level s) := by unfold drivePin; split <;> simp [SameData]
theorem responded_drivePin : Responded true s (drivePin level s) := by unfold drivePin; split <;> simp [Responded]

end

end Sys2Proof.Machine
end

section
/-!
The statements about WPA and WPC.
-/

namespace Sys2Proof

open Machine

/-- Settles O29: `drivePin` field by field, at the high level. -/
theorem wpaDrivesPinHigh : Obligations.WpaDrivesPinHigh := by
  intro s hw
  exact ⟨by decide, drivePin true s, exec_wpa_of_wf hw, drivePin_events true s, sameRegisters_drivePin true s,
    sameData_drivePin true s, drivePin_cmdIn true s, responded_drivePin true s⟩

/-- Settles O30: `drivePin` field by field, at the low level. -/
theorem wpcDrivesPinLow : Obligations.WpcDrivesPinLow := by
  intro s hw
  exact ⟨by decide, drivePin false s, exec_wpc_of_wf hw, drivePin_events false s, sameRegisters_drivePin false s,
    sameData_drivePin false s, drivePin_cmdIn false s, responded_drivePin false s⟩

end Sys2Proof
end

section
/-!
The failed check of a WRITE or READ (60_exceptions.md R150): one next state, `complete false`, which only answers.
-/

namespace Sys2Proof.Machine

/-- Either cause of a failure keeps the checks from passing (60_exceptions.md R150). -/
theorem not_passes_of_cause {s : State} {addr : Addr} {len : Len}
    (h : s.mode = .uninit ∨ s.cfg.capacity.toNat < addr.toNat + len.toNat) : ¬Passes s addr len := by
  rintro ⟨hmode, hrange⟩
  rcases h with huninit | hout
  · exact hmode huninit
  · exact absurd hrange (Nat.not_le.mpr hout)

/-! ### complete: the response alone -/

section
variable (ok : Bool) (s : State)

theorem sameRegisters_complete : SameRegisters s (complete ok s) := by
  simp [SameRegisters, SameSetting, SameSplitter]
theorem sameData_complete : SameData s (complete ok s) := by simp [SameData]
theorem responded_complete : Responded ok s (complete ok s) := by simp [Responded]

end

end Sys2Proof.Machine

namespace Sys2Proof

open Machine

/-- Settles O31: whichever check fails, WRITE and READ both end in `complete false s`. -/
theorem failedCheckChangesNothing : Obligations.FailedCheckChangesNothing := by
  intro s addr len i hw hi hcause
  have hfails : ¬Passes s addr len := not_passes_of_cause hcause
  have hexec : exec i s = .next (complete false s) := by
    rcases hi with rfl | rfl
    case inl =>
      obtain ⟨r, hr⟩ := preflight_of_not_passes hfails
      exact exec_write_of_fails hr hw
    case inr => exact exec_read_of_fails hfails hw
  exact ⟨_, hexec, rfl, sameRegisters_complete false s, sameData_complete false s, rfl, responded_complete false s⟩

end Sys2Proof
end

section
/-!
The encodings field by field: the command word from its fields and back (30_encoding.md R70 to R72), the event word (R80)
and the packed descriptor word (10_state.md R30).
-/

namespace Sys2Proof

/-! ### The command word -/

/-- The three fields make up the whole word (30_encoding.md R70). -/
theorem packCommand_fields (w : CmdWord) : packCommand (opField w) (lenField w) (addrField w) = w := by
  apply BitVec.eq_of_getLsbD_eq
  intro i hi
  rw [getLsbD_packCommand _ _ _ hi]
  split
  case isTrue h => simp [addrField, h]
  case isFalse h =>
    split
    case isTrue h2 => simp [lenField, show i - 16 < 17 by omega, show 16 + (i - 16) = i by omega]
    case isFalse h2 => simp [opField, show i - 33 < 3 by omega, show 33 + (i - 33) = i by omega]

/-- Masking a command word masks each field. -/
theorem packCommand_and (op op' : BitVec 3) (len len' : Len) (addr addr' : Addr) :
    packCommand op len addr &&& packCommand op' len' addr'
      = packCommand (op &&& op') (len &&& len') (addr &&& addr') := by
  apply BitVec.eq_of_getLsbD_eq
  intro i hi
  simp only [BitVec.getLsbD_and, getLsbD_packCommand _ _ _ hi]
  split
  · rfl
  · split <;> rfl

/-- A word that decodes has the operation code of its row, and its operands are the fields the row reads
(30_encoding.md R71, R72). -/
theorem decode_eq_ok {w : CmdWord} {i : Instr} (h : decode w = .ok i) :
    (opField w = 0#3 ∧ i = .init) ∨ (opField w = 1#3 ∧ i = .write (addrField w) (lenField w))
      ∨ (opField w = 2#3 ∧ i = .read (addrField w) (lenField w)) ∨ (opField w = 3#3 ∧ i = .read1 (addrField w))
      ∨ (opField w = 4#3 ∧ i = .wpa) ∨ (opField w = 5#3 ∧ i = .wpc) := by
  unfold decode at h
  split_ifs at h <;> simp_all [eq_comm]

/-! ### A field in a packed word -/

section
variable {w : Nat} {start len k : Nat} (W : Nat) (v : BitVec w)

/-- A field that fits the word is read back from its place. -/
theorem extract_field_same (h : k + w ≤ W) : (v.setWidth W <<< k).extractLsb' k w = v := by
  apply BitVec.eq_of_getLsbD_eq
  intro i hi
  simp [hi, show k + i < W by omega]

/-- A field leaves the places of the others 0. -/
theorem extract_field_other (h : k + w ≤ start ∨ start + len ≤ k) :
    (v.setWidth W <<< k).extractLsb' start len = 0#len := by
  apply BitVec.eq_of_getLsbD_eq
  intro i hi
  rcases h with h | h
  · simp [BitVec.getLsbD_of_ge v (start + i - k) (by omega)]
  · simp [show start + i < k by omega]

/-- The lowest field is read back from its place. -/
theorem extract_low_field_same (h : w ≤ W) : (v.setWidth W).extractLsb' 0 w = v := by
  simpa using extract_field_same (k := 0) W v (by omega)

/-- The lowest field leaves the places of the others 0. -/
theorem extract_low_field_other (h : w ≤ start) : (v.setWidth W).extractLsb' start len = 0#len := by
  simpa using extract_field_other (k := 0) (start := start) (len := len) W v (.inl (by omega))

end

/-! ### The event word -/

section
open Machine
variable (kind : BitVec 3) (da : DevAddr) (form : BitVec 2) (reg : BitVec 16) (n : BitVec 17) (level : BitVec 1)

/-- Each field of a packed event word stands at its place (30_encoding.md R80). -/
theorem packEvent_fields :
    (packEvent kind da form reg n level).extractLsb' 43 3 = kind
      ∧ (packEvent kind da form reg n level).extractLsb' 36 7 = da
      ∧ (packEvent kind da form reg n level).extractLsb' 34 2 = form
      ∧ (packEvent kind da form reg n level).extractLsb' 18 16 = reg
      ∧ (packEvent kind da form reg n level).extractLsb' 1 17 = n
      ∧ (packEvent kind da form reg n level).extractLsb' 0 1 = level := by
  simp (disch := omega) only [packEvent, BitVec.extractLsb'_or, extract_field_same, extract_field_other,
    extract_low_field_same, extract_low_field_other, BitVec.or_zero, BitVec.zero_or, and_self]

end

/-! ### The packed descriptor word -/

/-- Unpacking a packed descriptor gives it back (10_state.md R30). -/
theorem unpackChip_packChip (c : Descriptor) : unpackChip (packChip c) = c := by
  simp (disch := omega) only [unpackChip, packChip, BitVec.extractLsb'_or, extract_field_same, extract_field_other,
    extract_low_field_same, extract_low_field_other, BitVec.or_zero, BitVec.zero_or]

/-- Each field of an unpacked word as a number (10_state.md R30). -/
theorem unpackChip_toNat (w : BitVec 32) :
    (unpackChip w).capacity.toNat = w.toNat % 2 ^ 17
      ∧ (unpackChip w).pageSize.toNat = w.toNat / 2 ^ 17 % 2 ^ 8
      ∧ (unpackChip w).addressWidth.toNat = w.toNat / 2 ^ 25 % 2 ^ 2
      ∧ (unpackChip w).overflowBits.toNat = w.toNat / 2 ^ 27 % 2 ^ 2 := by
  simp [unpackChip, BitVec.extractLsb'_toNat, Nat.shiftRight_eq_div_pow]

/-- The reserved bits of a packed word are 0 (10_state.md R30). -/
theorem packChip_lt (c : Descriptor) : (packChip c).toNat < 2 ^ 29 := by
  have hreserved : (packChip c).extractLsb' 29 3 = 0#3 := by
    simp (disch := omega) only [packChip, BitVec.extractLsb'_or, extract_field_other, extract_low_field_other,
      BitVec.or_zero]
  have hnat : (packChip c).toNat / 2 ^ 29 % 2 ^ 3 = 0 := by
    simpa [BitVec.extractLsb'_toNat, Nat.shiftRight_eq_div_pow] using congrArg BitVec.toNat hreserved
  have := (packChip c).isLt
  omega

/-- A packed word is the sum of its fields, each at its weight: the fields below the reserved bits are all there is. -/
theorem packChip_toNat (c : Descriptor) :
    (packChip c).toNat = c.capacity.toNat + c.pageSize.toNat * 2 ^ 17 + c.addressWidth.toNat * 2 ^ 25
      + c.overflowBits.toNat * 2 ^ 27 := by
  obtain ⟨hcap, hps, haw, hob⟩ := unpackChip_toNat (packChip c)
  rw [unpackChip_packChip] at hcap hps haw hob
  have := packChip_lt c
  omega

/-- The mask of R30 keeps the four fields. -/
theorem unpackChip_and_mask (w : BitVec 32) : unpackChip (w &&& 0x1FFFFFFF#32) = unpackChip w := by
  have hcap : (0x1FFFFFFF#32).extractLsb' 0 17 = BitVec.allOnes 17 := by decide
  have hps : (0x1FFFFFFF#32).extractLsb' 17 8 = BitVec.allOnes 8 := by decide
  have haw : (0x1FFFFFFF#32).extractLsb' 25 2 = BitVec.allOnes 2 := by decide
  have hob : (0x1FFFFFFF#32).extractLsb' 27 2 = BitVec.allOnes 2 := by decide
  simp only [unpackChip, BitVec.extractLsb'_and, hcap, hps, haw, hob, BitVec.and_allOnes]

/-- The mask of the words that hold an operation code and an address. -/
theorem packCommand_and_address (op : BitVec 3) (len : Len) (addr : Addr) :
    packCommand op len addr &&& 0xE0000FFFF#36 = packCommand op 0#17 addr := by
  have hmask : 0xE0000FFFF#36 = packCommand 7#3 0#17 0xFFFF#16 := by decide
  have hop : op &&& 7#3 = op := BitVec.and_allOnes
  have haddr : addr &&& 0xFFFF#16 = addr := BitVec.and_allOnes
  rw [hmask, packCommand_and, hop, haddr, BitVec.and_zero]

end Sys2Proof
end

section
/-!
The statements about the encodings.
-/

namespace Sys2Proof

open Machine

/-- Settles O2: the packed word has the row's operation code, and each operand stands in its field. -/
theorem decodeEncodeRoundTrip : Obligations.DecodeEncodeRoundTrip := by
  intro i
  cases i with
  | init => simp [decode, encode, opField_packCommand]
  | write addr len => simp [decode, encode, opField_packCommand, lenField_packCommand, addrField_packCommand]
  | read addr len => simp [decode, encode, opField_packCommand, lenField_packCommand, addrField_packCommand]
  | read1 addr => simp [decode, encode, opField_packCommand, addrField_packCommand]
  | wpa => simp [decode, encode, opField_packCommand]
  | wpc => simp [decode, encode, opField_packCommand]

/-- Settles O3: the word is its three fields packed, and the encoder packs those of them that the row reads. -/
theorem encodeGivesCanonicalWord : Obligations.EncodeGivesCanonicalWord := by
  intro w i h
  have hw := packCommand_fields w
  rcases decode_eq_ok h with ⟨-, rfl⟩ | ⟨hop, rfl⟩ | ⟨hop, rfl⟩ | ⟨hop, rfl⟩ | ⟨-, rfl⟩ | ⟨-, rfl⟩
  · exact show encode .init = 0x000000000#36 by decide
  · rwa [hop] at hw
  · rwa [hop] at hw
  · calc encode (.read1 (addrField w)) = packCommand 3#3 0#17 (addrField w) := rfl
      _ = packCommand 3#3 (lenField w) (addrField w) &&& 0xE0000FFFF#36 := (packCommand_and_address ..).symm
      _ = w &&& 0xE0000FFFF#36 := by rw [← hop, hw]
  · exact show encode .wpa = 0x800000000#36 by decide
  · exact show encode .wpc = 0xA00000000#36 by decide

/-- Settles O4: nine closed words. -/
theorem vectorWordsDecode : Obligations.VectorWordsDecode := by
  unfold Obligations.VectorWordsDecode
  decide

/-- Settles O5: the word of each kind is packed from its fields, and each is read back from its place. -/
theorem eventWordFields : Obligations.EventWordFields := by
  intro e
  cases e <;> exact packEvent_fields ..

/-- Settles O6: each field as a number, the sum of the fields, the round trip, and the mask that keeps the fields. -/
theorem chipWordRoundTrip : Obligations.ChipWordRoundTrip := by
  refine ⟨unpackChip_toNat, packChip_toNat, unpackChip_packChip, fun w v h => ?ignored⟩
  case ignored => rw [← unpackChip_and_mask w, h, unpackChip_and_mask]

end Sys2Proof
end

section
/-!
What every instruction and every uncut step does to the setting, the histories and the event stream: one lemma each over
all cases, from which the statements on frames and whole-machine rules follow.
-/

namespace Sys2Proof.Machine

/-! ### The parts of a frame -/

theorem SameSetting.trans {s t u : State} (h : SameSetting s t) (h' : SameSetting t u) : SameSetting s u := by
  simp only [SameSetting] at *
  simp [h, h']

theorem SameSetting.cfg_eq {s t : State} (h : SameSetting s t) : t.cfg = s.cfg := by
  obtain ⟨-, -, -, -, -, -, -, hcfg, -, -⟩ := h
  exact hcfg

theorem SameSetting.params_eq {s t : State} (h : SameSetting s t) : t.params = s.params := by
  obtain ⟨-, -, -, -, -, -, hparams, -, -, -⟩ := h
  exact hparams

theorem SameSetting.bias_eq {s t : State} (h : SameSetting s t) : t.bias = s.bias := by
  obtain ⟨-, -, -, -, -, -, -, -, hbias, -⟩ := h
  exact hbias

theorem SameSetting.wpPresent_eq {s t : State} (h : SameSetting s t) : t.wpPresent = s.wpPresent := by
  obtain ⟨-, -, -, -, -, -, -, -, -, hwp⟩ := h
  exact hwp

theorem SameRegisters.setting {s t : State} (h : SameRegisters s t) : SameSetting s t := h.1

theorem SameRegisters.splitter {s t : State} (h : SameRegisters s t) : SameSplitter s t := h.2.1

theorem SameRegisters.mode_eq {s t : State} (h : SameRegisters s t) : t.mode = s.mode := by
  obtain ⟨-, -, hmode, -, -⟩ := h
  exact hmode

theorem SameRegisters.dar_eq {s t : State} (h : SameRegisters s t) : t.dar = s.dar := by
  obtain ⟨-, -, -, hdar, -⟩ := h
  exact hdar

theorem SameRegisters.seq_eq {s t : State} (h : SameRegisters s t) : t.seq = s.seq := by
  obtain ⟨-, -, -, -, hseq⟩ := h
  exact hseq

theorem SameData.wd_eq {s t : State} (h : SameData s t) : t.wd = s.wd := h.1

theorem SameData.tr_eq {s t : State} (h : SameData s t) : t.tr = s.tr := h.2.1

theorem SameData.rdat_eq {s t : State} (h : SameData s t) : t.rdat = s.rdat := h.2.2

/-- A response is appended to those before. -/
theorem Responded.grows {s t : State} {ok : Bool} (h : Responded ok s t) : ∃ rs, t.responses = s.responses ++ rs := by
  obtain ⟨-, b, hb⟩ := h
  exact ⟨_, hb⟩

/-- `base` is fixed by the build and the bias (10_state.md R32). -/
theorem SameSetting.base_eq {s t : State} (h : SameSetting s t) : t.base = s.base := by
  rw [State.base, State.base, h.params_eq, h.bias_eq]

/-- A block stays ready as long as its setting stays. -/
theorem Ready.of_sameSetting {s t : State} (hs : Ready s) (h : SameSetting s t) : Ready t := by
  obtain ⟨hrst, hwithin, -, -, -, hev, hparams, hcfg, -, -⟩ := h
  simpa only [Ready, hrst, hwithin, hcfg, hev, hparams] using hs

/-- Taking a command out of the caller's list touches no register. -/
theorem sameRegisters_popCommand (rest : List CmdWord) (s : State) :
    SameRegisters s (popCommand rest (beginStep s)) := by
  simp [SameRegisters, SameSetting, SameSplitter]

/-! ### One instruction -/

/-- Every way an instruction answers a next state: the cases of `ExecEffect`, named. -/
inductive ExecCase (s : State) : Instr → State → Prop
  | init : ExecCase s .init (startUp s)
  | writeFails (addr : Addr) (len : Len) : ¬Passes s addr len → ExecCase s (.write addr len) (complete false s)
  | writeAccepted (addr : Addr) (len : Len) : Passes s addr len → effectivePageSize s.params s.cfg len ≠ 0#8 →
      ExecCase s (.write addr len) (acceptWrite addr len s)
  | readFails (addr : Addr) (len : Len) : ¬Passes s addr len → ExecCase s (.read addr len) (complete false s)
  | readPerformed (addr : Addr) (len : Len) : Passes s addr len →
      ExecCase s (.read addr len) (performRead addr len s)
  | read1Fails (addr : Addr) : ¬Passes s addr 1#17 → ExecCase s (.read1 addr) (failRead1 s)
  | read1Performed (addr : Addr) : Passes s addr 1#17 → ExecCase s (.read1 addr) (performRead1 addr s)
  | wpa : ExecCase s .wpa (drivePin true s)
  | wpc : ExecCase s .wpc (drivePin false s)

/-- A check that gives a reason does not pass (42_write_splitter.md R111). -/
theorem not_passes_of_preflight {s : State} {addr : Addr} {len : Len} {r : FailReason}
    (h : preflight s addr len = some r) : ¬Passes s addr len := fun hp => by
  rw [preflight_none.mpr hp] at h
  cases h

section
variable {i : Instr} {s t : State}

theorem exec_cases (h : exec i s = .next t) : ExecCase s i t := by
  obtain ⟨-, he⟩ := exec_next h
  cases i with
  | init =>
    obtain rfl : t = startUp s := he
    exact .init
  | write addr len =>
    rcases he with ⟨r, hr, rfl⟩ | ⟨hp, hsize, rfl⟩
    · exact .writeFails addr len (not_passes_of_preflight hr)
    · exact .writeAccepted addr len (preflight_none.mp hp) hsize
  | read addr len =>
    rcases he with ⟨r, hr, rfl⟩ | ⟨hp, rfl⟩
    · exact .readFails addr len (not_passes_of_preflight hr)
    · exact .readPerformed addr len (preflight_none.mp hp)
  | read1 addr =>
    rcases he with ⟨r, hr, rfl⟩ | ⟨hp, rfl⟩
    · exact .read1Fails addr (not_passes_of_preflight hr)
    · exact .read1Performed addr (preflight_none.mp hp)
  | wpa =>
    obtain rfl : t = drivePin true s := he
    exact .wpa
  | wpc =>
    obtain rfl : t = drivePin false s := he
    exact .wpc

@[simp] theorem startUp_delayCut (s : State) : (startUp s).delayCut = s.delayCut := by
  unfold startUp; split <;> rfl
@[simp] theorem acceptWrite_delayCut (addr : Addr) (len : Len) (s : State) :
    (acceptWrite addr len s).delayCut = s.delayCut := by
  unfold acceptWrite; split <;> rfl
@[simp] theorem drivePin_delayCut (level : Bool) (s : State) : (drivePin level s).delayCut = s.delayCut := by
  unfold drivePin; split <;> rfl

/-- No instruction changes the setting, the caller's command list, the write data or the note of a cut delay. -/
theorem exec_frame (h : exec i s = .next t) :
    SameSetting s t ∧ t.cmdIn = s.cmdIn ∧ t.wd = s.wd ∧ t.delayCut = s.delayCut := by
  cases exec_cases h with
  | init =>
    exact ⟨sameSetting_startUp s, startUp_cmdIn s, (sameData_startUp s).wd_eq, startUp_delayCut s⟩
  | writeAccepted addr len =>
    exact ⟨sameSetting_acceptWrite .., acceptWrite_cmdIn .., (sameData_acceptWrite ..).wd_eq,
      acceptWrite_delayCut ..⟩
  | writeFails | readFails | read1Fails => exact ⟨(sameRegisters_complete false s).setting, rfl, rfl, rfl⟩
  | readPerformed addr len =>
    exact ⟨sameSetting_performRead .., performRead_cmdIn .., performRead_wd .., by simp [performRead]⟩
  | read1Performed addr =>
    exact ⟨sameSetting_performRead1 .., performRead1_cmdIn .., performRead1_wd .., by simp [performRead1]⟩
  | wpa | wpc =>
    exact ⟨(sameRegisters_drivePin ..).setting, drivePin_cmdIn .., (sameData_drivePin ..).wd_eq, drivePin_delayCut ..⟩

/-- Only INIT sets the mode. -/
theorem exec_mode (hi : i ≠ .init) (h : exec i s = .next t) : t.mode = s.mode := by
  cases exec_cases h with
  | init => exact absurd rfl hi
  | writeFails | readFails | read1Fails => rfl
  | writeAccepted => exact acceptWrite_mode ..
  | readPerformed => exact performRead_mode ..
  | read1Performed => exact performRead1_mode ..
  | wpa | wpc => exact (sameRegisters_drivePin ..).mode_eq

/-- Only WRITE touches the working registers and the sequencer state. -/
theorem exec_splitter (hi : ∀ addr len, i ≠ .write addr len) (h : exec i s = .next t) :
    SameSplitter s t ∧ t.seq = s.seq := by
  cases exec_cases h with
  | init => exact ⟨sameSplitter_startUp s, startUp_seq s⟩
  | writeFails addr len | writeAccepted addr len => exact absurd rfl (hi addr len)
  | readFails | read1Fails => exact ⟨(sameRegisters_complete false s).splitter, rfl⟩
  | readPerformed => exact ⟨sameSplitter_performRead .., performRead_seq ..⟩
  | read1Performed => exact ⟨sameSplitter_performRead1 .., performRead1_seq ..⟩
  | wpa | wpc => exact ⟨(sameRegisters_drivePin ..).splitter, (sameRegisters_drivePin ..).seq_eq⟩

/-- Only READ delivers bytes on the stream (43_read.md R133). -/
theorem exec_rdat (hi : ∀ addr len, i ≠ .read addr len) (h : exec i s = .next t) : t.rdat = s.rdat := by
  cases exec_cases h with
  | init => exact (sameData_startUp s).rdat_eq
  | writeFails | read1Fails => rfl
  | writeAccepted => exact (sameData_acceptWrite ..).rdat_eq
  | readFails addr len | readPerformed addr len => exact absurd rfl (hi addr len)
  | read1Performed => exact performRead1_rdat ..
  | wpa | wpc => exact (sameData_drivePin ..).rdat_eq

/-- Only READ and READ1 write `dar` and use up answers of the transport (43_read.md R132, R135). -/
theorem exec_dar_tr (hread : ∀ addr len, i ≠ .read addr len) (hread1 : ∀ addr, i ≠ .read1 addr)
    (h : exec i s = .next t) : t.dar = s.dar ∧ t.tr = s.tr := by
  cases exec_cases h with
  | init => exact ⟨startUp_dar s, (sameData_startUp s).tr_eq⟩
  | writeFails => exact ⟨rfl, rfl⟩
  | writeAccepted => exact ⟨acceptWrite_dar .., (sameData_acceptWrite ..).tr_eq⟩
  | readFails addr len | readPerformed addr len => exact absurd rfl (hread addr len)
  | read1Fails addr | read1Performed addr => exact absurd rfl (hread1 addr)
  | wpa | wpc => exact ⟨(sameRegisters_drivePin ..).dar_eq, (sameData_drivePin ..).tr_eq⟩

/-- Responses and delivered bytes are only appended (30_encoding.md R82, 43_read.md R133). -/
theorem exec_grows (h : exec i s = .next t) :
    (∃ rs, t.responses = s.responses ++ rs) ∧ ∃ bytes, t.rdat = s.rdat ++ bytes := by
  cases exec_cases h with
  | init => exact ⟨(responded_startUp s).grows, [], by simp [(sameData_startUp s).rdat_eq]⟩
  | writeFails | readFails | read1Fails => exact ⟨⟨_, rfl⟩, [], (List.append_nil _).symm⟩
  | writeAccepted addr len =>
    refine ⟨?_, [], by simp [(sameData_acceptWrite addr len s).rdat_eq]⟩
    unfold acceptWrite
    split
    · exact ⟨_, complete_responses ..⟩
    · exact ⟨[], (List.append_nil _).symm⟩
  | readPerformed => exact ⟨(responded_performRead ..).grows, _, performRead_rdat ..⟩
  | read1Performed addr =>
    obtain ⟨r, hr, -⟩ := performRead1_responds addr s
    exact ⟨⟨_, hr⟩, [], by simp⟩
  | wpa | wpc =>
    exact ⟨(responded_drivePin ..).grows, [], by simp [(sameData_drivePin _ s).rdat_eq]⟩

/-- An instruction emits pin events alone and leaves `dar`, or it issues one register read (43_read.md R132, R135). -/
theorem exec_emits (h : exec i s = .next t) :
    ∃ es, t.events = s.events ++ es
      ∧ (t.dar = s.dar ∧ (∀ e ∈ es, e = .pinOut ∨ ∃ level, e = .pin level)
        ∨ ∃ a n, t.dar = updatedDar s.cfg s.base s.dar a
            ∧ es = selectEvents s.cfg s.base a ++ [.rd t.dar s.cfg.addressWidth (regAddr s.cfg.addressWidth a) n]) := by
  cases exec_cases h with
  | init =>
    obtain ⟨es, hev, hpin⟩ := startUp_appends_pin_events s
    exact ⟨es, hev, .inl ⟨startUp_dar s, hpin⟩⟩
  | writeFails | readFails | read1Fails => exact ⟨[], (List.append_nil _).symm, .inl ⟨rfl, by simp⟩⟩
  | writeAccepted => exact ⟨[], by simp, .inl ⟨acceptWrite_dar .., by simp⟩⟩
  | readPerformed addr len =>
    exact ⟨_, by rw [performRead_events, List.append_assoc],
      .inr ⟨addr.toNat, len, performRead_dar .., by rw [performRead_dar]⟩⟩
  | read1Performed addr =>
    exact ⟨_, by rw [performRead1_events, List.append_assoc],
      .inr ⟨addr.toNat, 1#17, performRead1_dar .., by rw [performRead1_dar]⟩⟩
  | wpa | wpc =>
    exact ⟨_, drivePin_events .., .inl ⟨(sameRegisters_drivePin ..).dar_eq, by split <;> simp⟩⟩

/-- No instruction emits a register write: a WRITE's are emitted by its steps W-PAGE (log 12). -/
theorem exec_emits_no_wr (h : exec i s = .next t) :
    ∃ es, t.events = s.events ++ es ∧ ∀ da form reg n bytes, Event.wr da form reg n bytes ∉ es := by
  obtain ⟨es, hev, hes⟩ := exec_emits h
  refine ⟨es, hev, fun da form reg n bytes hm => ?_⟩
  rcases hes with ⟨-, hpins⟩ | ⟨a, k, -, rfl⟩
  · simpa using hpins _ hm
  · rcases List.mem_append.mp hm with hsel | hrd
    · simpa using (mem_selectEvents hsel).2
    · simp at hrd

end

/-! ### The two sequencer steps of a WRITE in progress -/

/-- The events of one page transaction at `a` of the first `n` bytes of `data` (42_write_splitter.md R115, R117). -/
def pageEvents (c : Descriptor) (base dar : DevAddr) (a n : Nat) (data : List Byte) : List Event :=
  selectEvents c base a
    ++ [.wr (updatedDar c base dar a) c.addressWidth (regAddr c.addressWidth a) (BitVec.ofNat 17 n) (data.take n)]

/-- The state after W-PAGE (42_write_splitter.md R122). -/
def pageNext (s : State) : State :=
  advancePage (nextChunk s) (issueWrite (nextAddress s) (nextChunk s) (beginStep s))

/-- The state after W-DLY (42_write_splitter.md R123). -/
def delayNext (s : State) : State :=
  if (delayPage (beginStep s)).pg = 0#17 then complete true (setSeq .idle (delayPage (beginStep s)))
  else setSeq .wPage (delayPage (beginStep s))

section
variable (s : State)

@[simp] theorem pageNext_dar : (pageNext s).dar = updatedDar s.cfg s.base s.dar (nextAddress s) := by simp [pageNext]
@[simp] theorem pageNext_events : (pageNext s).events
    = s.events ++ pageEvents s.cfg s.base s.dar (nextAddress s) (nextChunk s) s.wd := by
  simp [pageNext, pageEvents]
@[simp] theorem pageNext_mode : (pageNext s).mode = s.mode := by simp [pageNext]
@[simp] theorem pageNext_seq : (pageNext s).seq = .wDly := rfl
@[simp] theorem pageNext_addrL : (pageNext s).addrL = s.addrL := by simp [pageNext]
@[simp] theorem pageNext_lenL : (pageNext s).lenL = s.lenL := by simp [pageNext]
@[simp] theorem pageNext_eps : (pageNext s).eps = s.eps := by simp [pageNext]
@[simp] theorem pageNext_curOff : (pageNext s).curOff = 0#8 := rfl
@[simp] theorem pageNext_pg : (pageNext s).pg = s.pg := by simp [pageNext]
@[simp] theorem pageNext_cmdIn : (pageNext s).cmdIn = s.cmdIn := by simp [pageNext]
@[simp] theorem pageNext_tr : (pageNext s).tr = s.tr := by simp [pageNext]
@[simp] theorem pageNext_rdat : (pageNext s).rdat = s.rdat := by simp [pageNext]
@[simp] theorem pageNext_responses : (pageNext s).responses = s.responses := by simp [pageNext]
@[simp] theorem pageNext_delayCut : (pageNext s).delayCut = s.delayCut := by simp [pageNext]
theorem sameSetting_pageNext : SameSetting s (pageNext s) := by simp [pageNext, SameSetting]

/-- The byte count does not wrap (42_write_splitter.md R118). -/
@[simp] theorem pageNext_bytesSent : (pageNext s).bytesSent.toNat = s.bytesSent.toNat + nextChunk s := by
  rw [pageNext, advancePage_bytesSent, BitVec.toNat_ofNat, issueWrite_bytesSent, beginStep_bytesSent,
    Nat.mod_eq_of_lt (bytesSent_add_nextChunk_lt s)]

/-- The count field of the WR is the chunk (30_encoding.md R80). -/
theorem ofNat_nextChunk_toNat : (BitVec.ofNat 17 (nextChunk s)).toNat = nextChunk s :=
  Nat.mod_eq_of_lt ((Nat.le_add_left ..).trans_lt (bytesSent_add_nextChunk_lt s))

/-- W-DLY ends the WRITE or goes on to the next page; all else is the delay's own effect. -/
theorem delayNext_cases : delayNext s = complete true (setSeq .idle (delayPage (beginStep s)))
    ∨ delayNext s = setSeq .wPage (delayPage (beginStep s)) :=
  ite_eq_or_eq ..

@[simp] theorem delayNext_dar : (delayNext s).dar = s.dar := by
  rcases delayNext_cases s with h | h <;> simp [h]
@[simp] theorem delayNext_events : (delayNext s).events = s.events ++ [.dly s.params.tWcMs] := by
  rcases delayNext_cases s with h | h <;> simp [h]
@[simp] theorem delayNext_mode : (delayNext s).mode = s.mode := by
  rcases delayNext_cases s with h | h <;> simp [h]
@[simp] theorem delayNext_addrL : (delayNext s).addrL = s.addrL := by
  rcases delayNext_cases s with h | h <;> simp [h]
@[simp] theorem delayNext_lenL : (delayNext s).lenL = s.lenL := by
  rcases delayNext_cases s with h | h <;> simp [h]
@[simp] theorem delayNext_eps : (delayNext s).eps = s.eps := by
  rcases delayNext_cases s with h | h <;> simp [h]
@[simp] theorem delayNext_curOff : (delayNext s).curOff = s.curOff := by
  rcases delayNext_cases s with h | h <;> simp [h]
@[simp] theorem delayNext_bytesSent : (delayNext s).bytesSent = s.bytesSent := by
  rcases delayNext_cases s with h | h <;> simp [h]
@[simp] theorem delayNext_cmdIn : (delayNext s).cmdIn = s.cmdIn := by
  rcases delayNext_cases s with h | h <;> simp [h]
@[simp] theorem delayNext_delayCut : (delayNext s).delayCut = false := by
  rcases delayNext_cases s with h | h <;> simp [h]
theorem sameSetting_delayNext : SameSetting s (delayNext s) := by
  rcases delayNext_cases s with h | h <;> simp [h, SameSetting]
theorem sameData_delayNext : SameData s (delayNext s) := by
  rcases delayNext_cases s with h | h <;> simp [h, SameData]

/-- The page count falls by one (42_write_splitter.md R118). -/
@[simp] theorem delayNext_pg : (delayNext s).pg.toNat = s.pg.toNat - 1 := by
  have hfits : s.pg.toNat - 1 < 2 ^ 17 := (Nat.sub_le ..).trans_lt s.pg.isLt
  have hpg : (delayNext s).pg = BitVec.ofNat 17 (s.pg.toNat - 1) := by
    rcases delayNext_cases s with h | h <;> simp [h]
  rw [hpg, BitVec.toNat_ofNat, Nat.mod_eq_of_lt hfits]

variable {s}

/-- After the last page the WRITE completes (42_write_splitter.md R123). -/
theorem delayNext_of_last (h : s.pg.toNat = 1) : (delayNext s).seq = .idle ∧ Responded true s (delayNext s) := by
  have hzero : (delayPage (beginStep s)).pg = 0#17 := by simp [h]
  rw [delayNext, if_pos hzero]
  simp [Responded]

/-- With a page left the loop goes on (42_write_splitter.md R123). -/
theorem delayNext_of_more (h : 1 < s.pg.toNat) : (delayNext s).seq = .wPage ∧ Silent s (delayNext s) := by
  have hpg := delayNext_pg s
  have hmore : (delayPage (beginStep s)).pg ≠ 0#17 := fun hzero => by
    rw [delayNext, if_pos hzero] at hpg
    rw [complete_pg, setSeq_pg, hzero] at hpg
    simp at hpg
    omega
  rw [delayNext, if_neg hmore]
  simp [Silent]

end

/-! ### One step that is not cut -/

/-- The events `es` of an uncut step from `s` to `t`, with what the step does to `dar` and the note of a cut delay: pin
events or none in IDLE, one register read in IDLE, one register write in W_PAGE, one delay in W_DLY. -/
inductive StepEmits (s t : State) : List Event → Prop
  | pins {es : List Event} (hseq : s.seq = .idle) (hdar : t.dar = s.dar) (hcut : t.delayCut = s.delayCut)
      (hpins : ∀ e ∈ es, e = .pinOut ∨ ∃ level, e = .pin level) : StepEmits s t es
  | read (a : Nat) (n : BitVec 17) (hseq : s.seq = .idle) (hdar : t.dar = updatedDar s.cfg s.base s.dar a)
      (hcut : t.delayCut = s.delayCut) :
      StepEmits s t (selectEvents s.cfg s.base a ++ [.rd t.dar s.cfg.addressWidth (regAddr s.cfg.addressWidth a) n])
  | page (hseq : s.seq = .wPage) (hnext : t = pageNext s) :
      StepEmits s t (pageEvents s.cfg s.base s.dar (nextAddress s) (nextChunk s) s.wd)
  | delay (hseq : s.seq = .wDly) (hnext : t = delayNext s) : StepEmits s t [.dly s.params.tWcMs]

section
variable {s t : State}

/-- The cases of an uncut step, the two sequencer steps by name. -/
theorem StepEffect.cases (h : StepEffect s t) :
    (s.seq = .idle ∧ s.cmdIn = [] ∧ t = beginStep s)
      ∨ (s.seq = .idle ∧ ∃ w rest i, s.cmdIn = w :: rest ∧ decode w = .ok i
          ∧ exec i (popCommand rest (beginStep s)) = .next t)
      ∨ (s.seq = .idle ∧ ∃ w rest, s.cmdIn = w :: rest ∧ (opField w = 6#3 ∨ opField w = 7#3)
          ∧ t = complete false (popCommand rest (beginStep s)))
      ∨ (s.seq = .wPage ∧ t = pageNext s) ∨ (s.seq = .wDly ∧ t = delayNext s) := h

/-- In W_PAGE the uncut step is W-PAGE. -/
theorem StepEffect.eq_pageNext (h : StepEffect s t) (hq : s.seq = .wPage) : t = pageNext s := by
  rcases StepEffect.cases h with ⟨hq', -⟩ | ⟨hq', -⟩ | ⟨hq', -⟩ | ⟨-, ht⟩ | ⟨hq', -⟩
  case inr.inr.inr.inl => exact ht
  all_goals exact absurd (hq'.symm.trans hq) (by decide)

theorem StepEffect.emits (h : StepEffect s t) : ∃ es, t.events = s.events ++ es ∧ StepEmits s t es := by
  rcases StepEffect.cases h with ⟨hq, -, rfl⟩ | ⟨hq, w, rest, i, -, -, hx⟩ | ⟨hq, w, rest, -, -, rfl⟩ | ⟨hq, rfl⟩
    | ⟨hq, rfl⟩
  · exact ⟨[], by simp, .pins hq rfl rfl (by simp)⟩
  · obtain ⟨-, -, -, hcut⟩ := exec_frame hx
    obtain ⟨es, hev, ⟨hdar, hpins⟩ | ⟨a, n, hdar, rfl⟩⟩ := exec_emits hx
    · exact ⟨es, hev, .pins hq hdar hcut hpins⟩
    · exact ⟨_, hev, .read a n hq hdar hcut⟩
  · exact ⟨[], by simp, .pins hq rfl rfl (by simp)⟩
  · exact ⟨_, pageNext_events s, .page hq rfl⟩
  · exact ⟨_, delayNext_events s, .delay hq rfl⟩

/-- No uncut step changes the setting (10_state.md R29). -/
theorem StepEffect.sameSetting (h : StepEffect s t) : SameSetting s t := by
  rcases StepEffect.cases h with ⟨-, -, rfl⟩ | ⟨-, w, rest, i, -, -, hx⟩ | ⟨-, w, rest, -, -, rfl⟩ | ⟨-, rfl⟩ | ⟨-, rfl⟩
  · simp [SameSetting]
  · exact (sameRegisters_popCommand rest s).setting.trans (exec_frame hx).1
  · simp [SameSetting]
  · exact sameSetting_pageNext s
  · exact sameSetting_delayNext s

/-- An uncut step only appends to the responses and the delivered bytes. -/
theorem StepEffect.grows (h : StepEffect s t) :
    (∃ rs, t.responses = s.responses ++ rs) ∧ ∃ bytes, t.rdat = s.rdat ++ bytes := by
  rcases StepEffect.cases h with ⟨-, -, rfl⟩ | ⟨-, w, rest, i, -, -, hx⟩ | ⟨-, w, rest, -, -, rfl⟩ | ⟨-, rfl⟩ | ⟨-, rfl⟩
  · exact ⟨⟨[], by simp⟩, [], by simp⟩
  · simpa using exec_grows hx
  · exact ⟨⟨_, rfl⟩, [], by simp⟩
  · exact ⟨⟨[], by simp⟩, [], by simp⟩
  · refine ⟨?_, [], by simp [(sameData_delayNext s).rdat_eq]⟩
    rcases delayNext_cases s with h | h
    · exact ⟨_, by rw [h, complete_responses, setSeq_responses, delayPage_responses, beginStep_responses]⟩
    · exact ⟨[], by simp [h]⟩

/-- An uncut step sets the mode only by an INIT (40_lifecycle_init.md R93). -/
theorem StepEffect.mode (h : StepEffect s t) :
    t.mode = s.mode
      ∨ s.seq = .idle ∧ (∃ w rest, s.cmdIn = w :: rest ∧ decode w = .ok .init)
        ∧ t.mode = if s.wpPresent then .activeWp else .active := by
  rcases StepEffect.cases h with ⟨-, -, rfl⟩ | ⟨hq, w, rest, i, hc, hd, hx⟩ | ⟨-, w, rest, -, -, rfl⟩ | ⟨-, rfl⟩
    | ⟨-, rfl⟩
  · exact .inl rfl
  · by_cases hi : i = .init
    case pos =>
      subst hi
      obtain ⟨-, rfl⟩ : _ ∧ t = startUp (popCommand rest (beginStep s)) := exec_next hx
      exact .inr ⟨hq, ⟨w, rest, hc, hd⟩, startUp_mode _⟩
    case neg => exact .inl (by simpa using exec_mode hi hx)
  · exact .inl rfl
  · exact .inl (pageNext_mode s)
  · exact .inl (delayNext_mode s)

end

end Sys2Proof.Machine
end

section
/-!
What events mean for the outside state they change (10_state.md R36, 20_memory.md R62), for the statements on frames and
whole-machine rules.
-/

namespace Sys2Proof.Machine

/-- Without a register write no byte of the reference device changes (20_memory.md R62). -/
theorem refRun_of_no_wr (c : Descriptor) (base : DevAddr) {es : List Event}
    (hes : ∀ da form reg n bytes, Event.wr da form reg n bytes ∉ es) (d : RefDevice) :
    ∃ d', refRun c base d es = some d' ∧ d'.ee = d.ee := by
  induction es generalizing d with
  | nil => exact ⟨d, rfl, rfl⟩
  | cons e es ih =>
    have hrest : ∀ da form reg n bytes, Event.wr da form reg n bytes ∉ es :=
      fun da form reg n bytes hm => hes da form reg n bytes (List.mem_cons_of_mem e hm)
    have hone : ∃ d₁, refApply c base d e = some d₁ ∧ d₁.ee = d.ee := by
      cases e with
      | wr da form reg n bytes => exact absurd List.mem_cons_self (hes da form reg n bytes)
      | sel da => exact ⟨{ d with tsel := da }, rfl, rfl⟩
      | rd | dly | pinOut | pin => exact ⟨d, rfl, rfl⟩
    obtain ⟨d₁, h₁, hee₁⟩ := hone
    obtain ⟨d', h', hee'⟩ := ih hrest d₁
    exact ⟨d', by rw [refRun, h₁]; exact h', hee'.trans hee₁⟩

/-- The device address an event carries on the bus (20_memory.md R51). -/
def BusAddress (e : Event) (da : DevAddr) : Prop :=
  e = .sel da ∨ (∃ form reg n bytes, e = .wr da form reg n bytes) ∨ ∃ form reg n, e = .rd da form reg n

/-- Cutting an event leaves its device address (log 20). -/
theorem busAddress_of_cutEvent {moved : Nat} {e : Event} {da : DevAddr} (h : BusAddress (cutEvent moved e) da) :
    BusAddress e da := by
  cases e <;> simp_all [BusAddress, cutEvent]

/-- `UpdateDA` puts the new `dar` on the bus, or nothing (41_address_encoder.md R99). -/
theorem busAddress_selectEvents {c : Descriptor} {base dar da : DevAddr} {a : Nat} {e : Event}
    (he : e ∈ selectEvents c base a) (h : BusAddress e da) : da = updatedDar c base dar a := by
  obtain ⟨hob, rfl⟩ := mem_selectEvents he
  rw [updatedDar_of_ne base dar a hob]
  simpa [BusAddress, eq_comm] using h

/-- The bus events of an uncut step carry the `dar` it leaves. -/
theorem StepEmits.busAddress {s t : State} {es : List Event} (hes : StepEmits s t es) {e : Event} {da : DevAddr}
    (he : e ∈ es) (h : BusAddress e da) : da = t.dar := by
  cases hes with
  | pins hseq hdar hcut hpins =>
    rcases hpins e he with rfl | ⟨level, rfl⟩ <;> simp [BusAddress] at h
  | read a n hseq hdar hcut =>
    rcases List.mem_append.mp he with hsel | hrd
    · rw [hdar]
      exact busAddress_selectEvents hsel h
    · obtain rfl := List.mem_singleton.mp hrd
      simpa [BusAddress, eq_comm] using h
  | page hseq hnext =>
    subst hnext
    rw [pageNext_dar]
    rcases List.mem_append.mp he with hsel | hwr
    · exact busAddress_selectEvents hsel h
    · obtain rfl := List.mem_singleton.mp hwr
      simpa [BusAddress, eq_comm] using h
  | delay hseq hnext =>
    obtain rfl := List.mem_singleton.mp he
    simp [BusAddress] at h

/-- The `dar` an uncut step leaves is its old value or the result of one `UpdateDA`. -/
theorem StepEmits.dar {s t : State} {es : List Event} (h : StepEmits s t es) :
    t.dar = s.dar ∨ ∃ a, t.dar = updatedDar s.cfg s.base s.dar a := by
  cases h with
  | pins hseq hdar hcut hpins => exact .inl hdar
  | read a n hseq hdar hcut => exact .inr ⟨a, hdar⟩
  | page hseq hnext => exact .inr ⟨_, by rw [hnext, pageNext_dar]⟩
  | delay hseq hnext => exact .inl (by rw [hnext, delayNext_dar])

/-- `UpdateDA` alone writes `dar`, so an uncut step keeps it in the family (41_address_encoder.md R101). -/
theorem StepEffect.darAgrees {s t : State} (h : StepEffect s t) (hs : DarAgrees s) : DarAgrees t := by
  obtain ⟨es, -, hes⟩ := StepEffect.emits h
  have hset := StepEffect.sameSetting h
  rw [DarAgrees, hset.cfg_eq, hset.base_eq]
  rcases hes.dar with hdar | ⟨a, hdar⟩
  · rw [hdar]
    exact hs
  · rw [hdar]
    exact updatedDar_outside a hs

/-- What agrees with the default base outside the overflow field is one of the eight addresses of the family
(20_memory.md R51). -/
theorem family_of_default_base {ob : BitVec 2} {bias : BitVec 3} {da : DevAddr}
    (h : da &&& ~~~overflowMask ob = (0x50#7 ||| bias.setWidth 7) &&& ~~~overflowMask ob) :
    0x50 ≤ da.toNat ∧ da.toNat ≤ 0x57 := by
  have hmask : ∀ ob : BitVec 2, ~~~overflowMask ob &&& 0x78#7 = 0x78#7 := by decide
  have hbase : ∀ bias : BitVec 3, (0x50#7 ||| bias.setWidth 7) &&& 0x78#7 = 0x50#7 := by decide
  have hrange : ∀ da : DevAddr, da &&& 0x78#7 = 0x50#7 → 0x50 ≤ da.toNat ∧ da.toNat ≤ 0x57 := by decide
  refine hrange da ?_
  calc da &&& 0x78#7 = da &&& ~~~overflowMask ob &&& 0x78#7 := by rw [BitVec.and_assoc, hmask]
    _ = (0x50#7 ||| bias.setWidth 7) &&& 0x78#7 := by rw [h, BitVec.and_assoc, hmask]
    _ = 0x50#7 := hbase bias

/-- After a selection the transport has the selected address (10_state.md R36 (a)). -/
theorem selectedAddress_append_selectEvents (h : List Event) {c : Descriptor} (base dar : DevAddr) (a : Nat) {e : Event}
    (hob : c.overflowBits ≠ 0#2) (he : ∀ da, e ≠ .sel da) :
    selectedAddress (h ++ (selectEvents c base a ++ [e])) = some (updatedDar c base dar a) := by
  have hnosel : ∀ da, Event.sel da ∉ [e] := fun da hm => he da (List.mem_singleton.mp hm).symm
  rw [← List.append_assoc, selectedAddress_append_of_no_sel hnosel, selectEvents_of_ne base a hob,
    updatedDar_of_ne base dar a hob]
  simp [selectedAddress]

/-- Pin events and register reads open and close no write cycle (20_memory.md R59). -/
theorem writeCycleOpen_append_of_quiet {ms : BitVec 17} {h es : List Event}
    (hes : ∀ busy, es.foldl (cycleAfter ms) busy = busy) : writeCycleOpen ms (h ++ es) = writeCycleOpen ms h := by
  rw [writeCycleOpen, List.foldl_append, hes]
  rfl

/-- Pin events open and close no write cycle. -/
theorem foldl_cycleAfter_pins {ms : BitVec 17} {es : List Event} (hes : ∀ e ∈ es, e = .pinOut ∨ ∃ level, e = .pin level)
    (busy : Bool) : es.foldl (cycleAfter ms) busy = busy := by
  induction es with
  | nil => rfl
  | cons e es ih =>
    have hone : cycleAfter ms busy e = busy := by
      rcases hes e List.mem_cons_self with rfl | ⟨level, rfl⟩ <;> rfl
    rw [List.foldl_cons, hone, ih fun e' he' => hes e' (List.mem_cons_of_mem e he')]

end Sys2Proof.Machine
end

section
/-!
The statements on frames and whole-machine rules that follow from what a step emits and leaves.
-/

namespace Sys2Proof

open Machine

/-- Settles O41: the frame of each instruction; none of the events it appends is a register write, so no byte of the
device changes. -/
theorem instructionFrame : Obligations.InstructionFrame := by
  intro i s t h
  obtain ⟨hset, hcmd, hwd, hcut⟩ := exec_frame h
  obtain ⟨es, hev, hnowr⟩ := exec_emits_no_wr h
  refine ⟨hset, hcmd, hwd, hcut, fun hi => exec_mode hi h, fun hi => exec_splitter hi h, fun hi => exec_rdat hi h,
    fun hread hread1 => exec_dar_tr hread hread1 h, es, hev, hnowr, fun d a => ?device⟩
  case device =>
    obtain ⟨d', hrun, hee⟩ := refRun_of_no_wr s.cfg s.base hnowr d
    exact ⟨d', hrun, by rw [hee]⟩

/-- Settles O43: both kinds of reset leave UNINIT; an uncut step sets the mode only by an INIT. -/
theorem modeChangesOnlyByInit : Obligations.ModeChangesOnlyByInit := by
  intro s t h
  rcases step_next h with ⟨hr, rfl⟩ | ⟨-, -, p, u, hp, -, -, -, rfl⟩ | ⟨hr, -, -, -, he, -⟩
  · exact .inl ⟨.inl hr, applyReset_mode s⟩
  · exact .inl ⟨.inr (by simp [hp]), abandon_mode p s u⟩
  · rcases StepEffect.mode he with hm | ⟨hq, hinit, hm⟩
    · exact .inr (.inl hm)
    · exact .inr (.inr ⟨hr, hq, hinit, hm⟩)

/-- Settles O44: both kinds of reset load the inputs; an uncut step keeps the whole setting. -/
theorem configurationIsFixed : Obligations.ConfigurationIsFixed := by
  intro s t h
  rcases step_next h with ⟨hr, rfl⟩ | ⟨hr, -, p, u, hp, -, -, -, rfl⟩ | ⟨hr, -, -, -, he, -⟩
  · simp [hr]
  · simp [hr, hp]
  · have hset := StepEffect.sameSetting he
    exact ⟨hset.params_eq, by simp [hr, hset.cfg_eq, hset.bias_eq, hset.wpPresent_eq, hset.base_eq]⟩

/-- Settles O45: reset touches no history, a cut step appends what it had emitted and delivered, an uncut one what it
emits, answers and delivers. -/
theorem historyOnlyGrows : Obligations.HistoryOnlyGrows := by
  intro s t h
  rcases step_next h with ⟨-, rfl⟩ | ⟨-, -, p, u, -, -, -, -, rfl⟩ | ⟨-, -, -, -, he, -⟩
  · simp
  · obtain ⟨bytes, hbytes⟩ := abandon_rdat p s u
    exact ⟨⟨_, (abandon_events p s u).symm⟩, by simp, bytes, hbytes.symm⟩
  · obtain ⟨es, hes, -⟩ := StepEffect.emits he
    obtain ⟨⟨rs, hrs⟩, bytes, hbytes⟩ := StepEffect.grows he
    exact ⟨⟨es, hes.symm⟩, ⟨rs, hrs.symm⟩, bytes, hbytes.symm⟩

/-- Settles O46: each bus event carries the `dar` the uncut step leaves, which is in the family; a cut step emits some of
the same events, cut or whole, with the same addresses. -/
theorem busAddressesAreInTheFamily : Obligations.BusAddressesAreInTheFamily := by
  intro s t hs hr h
  have hfamily : ∀ {u : State} {es : List Event} {e : Event} {da : DevAddr}, StepEffect s u → StepEmits s u es →
      e ∈ es → BusAddress e da →
        da &&& ~~~overflowMask s.cfg.overflowBits = s.base &&& ~~~overflowMask s.cfg.overflowBits
        ∧ (s.params.baseAddr = 0x50#7 → 0x50 ≤ da.toNat ∧ da.toNat ≤ 0x57) := by
    intro u es e da hu hes he hda
    have hset := StepEffect.sameSetting hu
    have hagree := hu.darAgrees hs
    rw [DarAgrees, hset.cfg_eq, hset.base_eq, ← hes.busAddress he hda] at hagree
    exact ⟨hagree, fun hbase => family_of_default_base (by rw [hagree, State.base, hbase])⟩
  rcases step_next h with ⟨hr', -⟩ | ⟨-, -, p, u, -, -, hu, -, rfl⟩ | ⟨-, -, -, -, ht, -⟩
  · simp [hr] at hr'
  · obtain ⟨es, hev, hes⟩ := StepEffect.emits hu
    refine ⟨_, abandon_events p s u, fun e he da hda => ?_⟩
    have hsub : ∀ {e'}, e' ∈ emittedAt p s u → e' ∈ es := fun he' => stepEvents_of_append hev ▸ mem_emittedAt he'
    rcases mem_cutLast he with hwhole | ⟨e', hcut, rfl⟩
    · exact hfamily hu hes (hsub hwhole) hda
    · exact hfamily hu hes (hsub hcut) (busAddress_of_cutEvent hda)
  · obtain ⟨es, hev, hes⟩ := StepEffect.emits ht
    exact ⟨es, hev, fun e he da hda => hfamily ht hes he hda⟩

/-- Settles O49: a read and a page transaction select the `dar` they leave; the other steps select nothing and keep it. -/
theorem darMirrorsSelection : Obligations.DarMirrorsSelection := by
  intro s t hr hn h hob hs
  obtain ⟨-, he, -⟩ := step_next_uncut hr hn h
  obtain ⟨es, hev, hes⟩ := StepEffect.emits he
  rw [hev]
  cases hes with
  | pins hseq hdar hcut hpins =>
    rw [selectedAddress_append_of_no_sel fun da hm => by simpa using hpins _ hm, hdar]
    exact hs
  | read a n hseq hdar hcut =>
    rw [selectedAddress_append_selectEvents s.events s.base s.dar a hob (by simp), hdar]
    exact .inr rfl
  | page hseq hnext =>
    rw [pageEvents, selectedAddress_append_selectEvents s.events s.base s.dar (nextAddress s) hob (by simp), hnext,
      pageNext_dar]
    exact .inr rfl
  | delay hseq hnext =>
    rw [selectedAddress_append_of_no_sel (by simp), hnext, delayNext_dar]
    exact hs

/-- Settles O50: in IDLE nothing opens a write cycle, W-PAGE leads to W_DLY, and W-DLY waits the cycle out. -/
theorem noWriteCycleOpenInIdle : Obligations.NoWriteCycleOpenInIdle := by
  intro s t hr hn h hs ht
  obtain ⟨-, he, -⟩ := step_next_uncut hr hn h
  have hset := StepEffect.sameSetting he
  obtain ⟨es, hev, hes⟩ := StepEffect.emits he
  have hidle : s.seq = .idle → t.delayCut = s.delayCut →
      (∀ busy, es.foldl (cycleAfter s.params.tWcMs) busy = busy) → t.seq = .wDly := by
    intro hseq hcut hquiet
    rw [State.cycleOpen, hcut, hset.params_eq, hev, writeCycleOpen_append_of_quiet hquiet] at ht
    rw [hs ht] at hseq
    cases hseq
  cases hes with
  | pins hseq hdar hcut hpins => exact hidle hseq hcut (foldl_cycleAfter_pins hpins)
  | read a n hseq hdar hcut => exact hidle hseq hcut fun busy => by simp [cycleAfter]
  | page hseq hnext => rw [hnext, pageNext_seq]
  | delay hseq hnext =>
    have hclosed : t.cycleOpen = false := by
      rw [State.cycleOpen, hset.params_eq, hev, hnext]
      simp [writeCycleOpen, cycleAfter]
    rw [hclosed] at ht
    cases ht

end Sys2Proof
end

section
/-!
When an instruction answers, and what one step of the sequencer does in each state, for the statements about the step.
-/

namespace Sys2Proof.Machine

/-! ### Instructions answer -/

section
variable {s : State} {addr : Addr} {len : Len}

/-- A WRITE that passes its checks is accepted when it has a page size to divide by (42_write_splitter.md R113). -/
theorem exec_write_of_pageSize (hp : Passes s addr len) (hw : s.cfg.wellFormed = true)
    (hsize : effectivePageSize s.params s.cfg len ≠ 0#8) :
    exec (.write addr len) s = .next (acceptWrite addr len s) := by
  simp only [exec, execWrite, preflight_none.mpr hp]
  exact whenPageSized_eq_next.mpr ⟨hw, hsize, rfl⟩

/-- A WRITE that fails a check only answers (42_write_splitter.md R111). -/
theorem exec_write_of_not_passes (hp : ¬Passes s addr len) (hw : s.cfg.wellFormed = true) :
    exec (.write addr len) s = .next (complete false s) := by
  obtain ⟨r, hr⟩ := preflight_of_not_passes hp
  exact exec_write_of_fails hr hw

/-- A WRITE that passes its checks without a page size to divide by is refused (log 19). -/
theorem exec_write_of_zeroPageSize (hp : Passes s addr len) (hw : s.cfg.wellFormed = true)
    (hsize : effectivePageSize s.params s.cfg len = 0#8) :
    exec (.write addr len) s = .refused .zeroPageSize := by
  simp only [exec, execWrite, preflight_none.mpr hp]
  exact if_pos ⟨hw, hsize⟩

/-- The device's own page size is at least one byte (70_reset_and_hazards.md R176). -/
theorem pageSize_ne_zero {c : Descriptor} (h : c.wellFormed = true) : c.pageSize ≠ 0#8 := by
  simp only [Descriptor.wellFormed, Bool.and_eq_true, decide_eq_true_eq] at h
  exact one_le_toNat.mp h.1.1

/-- In a build with SPLIT_PAGE other than 0 every instruction answers a next state (70_reset_and_hazards.md R176). -/
theorem exec_answers (i : Instr) (hw : s.cfg.wellFormed = true) (hsplit : s.params.splitPage ≠ 0#8) :
    ∃ t, exec i s = .next t := by
  cases i with
  | init => exact ⟨_, exec_init_of_wf hw⟩
  | write addr len =>
    by_cases hp : Passes s addr len
    · exact ⟨_, exec_write_of_pageSize hp hw (one_le_toNat.mp (one_le_effectivePageSize len hw hsplit))⟩
    · exact ⟨_, exec_write_of_not_passes hp hw⟩
  | read addr len =>
    by_cases hp : Passes s addr len
    · exact ⟨_, exec_read_of_passes hp hw⟩
    · exact ⟨_, exec_read_of_fails hp hw⟩
  | read1 addr =>
    by_cases hp : Passes s addr 1#17
    · exact ⟨_, exec_read1_of_passes hp hw⟩
    · exact ⟨_, exec_read1_of_fails hp hw⟩
  | wpa => exact ⟨_, exec_wpa_of_wf hw⟩
  | wpc => exact ⟨_, exec_wpc_of_wf hw⟩

/-- A response says one value of `ok`. -/
theorem Responded.ok_unique {s t : State} {ok ok' : Bool} (h : Responded ok s t) (h' : Responded ok' s t) : ok = ok' := by
  obtain ⟨-, b, hb⟩ := h
  obtain ⟨-, b', hb'⟩ := h'
  rw [hb] at hb'
  simp_all

/-- The accepting step of a WRITE answers no `ok = 0` (42_write_splitter.md R121). -/
theorem not_responded_false_acceptWrite (addr : Addr) (len : Len) (s : State) :
    ¬Responded false s (acceptWrite addr len s) := by
  unfold acceptWrite
  split
  · intro h
    exact absurd (h.ok_unique (ok' := true) ⟨rfl, _, rfl⟩) (by decide)
  · rintro ⟨-, b, hb⟩
    simp at hb

end

/-! ### The sequencer's next action in each state of `seq` -/

section
variable {s : State}

theorem advance_of_waiting (hw : s.cfg.wellFormed = true) (hq : s.seq = .idle) (hc : s.cmdIn = []) :
    advance (beginStep s) = .next (beginStep s) := by
  simp only [advance, beginStep_seq, hq, beginStep_cmdIn, hc]
  exact whenWellFormed_of_wf _ hw

theorem advance_of_command {w : CmdWord} {rest : List CmdWord} {i : Instr} (hq : s.seq = .idle)
    (hc : s.cmdIn = w :: rest) (hd : decode w = .ok i) :
    advance (beginStep s) = exec i (popCommand rest (beginStep s)) := by
  simp only [advance, beginStep_seq, hq, beginStep_cmdIn, hc, acceptCommand, hd]

theorem advance_of_reserved {w : CmdWord} {rest : List CmdWord} {e : DecodeError} (hw : s.cfg.wellFormed = true)
    (hq : s.seq = .idle) (hc : s.cmdIn = w :: rest) (hd : decode w = .error e) :
    advance (beginStep s) = .next (complete false (popCommand rest (beginStep s))) := by
  simp only [advance, beginStep_seq, hq, beginStep_cmdIn, hc, acceptCommand, hd]
  exact whenWellFormed_of_wf _ hw

theorem advance_of_page (hw : s.cfg.wellFormed = true) (hq : s.seq = .wPage) :
    advance (beginStep s) = .next (pageNext s) := by
  simp only [advance, beginStep_seq, hq]
  exact whenWellFormed_of_wf _ hw

theorem advance_of_delay (hw : s.cfg.wellFormed = true) (hq : s.seq = .wDly) :
    advance (beginStep s) = .next (delayNext s) := by
  simp only [advance, beginStep_seq, hq]
  exact whenWellFormed_of_wf _ hw

/-- Outside IDLE the sequencer's next action emits at least one event (42_write_splitter.md R122, R123). -/
theorem advance_of_busy (hw : s.cfg.wellFormed = true) (hq : s.seq ≠ .idle) :
    ∃ u, advance (beginStep s) = .next u ∧ u.cmdIn = s.cmdIn ∧ s.events.length < u.events.length := by
  cases hseq : s.seq with
  | idle => exact absurd hseq hq
  | wPage => exact ⟨_, advance_of_page hw hseq, pageNext_cmdIn s, by simp [pageEvents]⟩
  | wDly => exact ⟨_, advance_of_delay hw hseq, delayNext_cmdIn s, by simp⟩

/-! ### Waiting for the collaborators and for the data -/

/-- A step that emits nothing ends, whatever the collaborators do (log 6). -/
theorem whenReturned_of_silent {t : State} (h : t.events.length = s.events.length) :
    whenReturned s (.next t) = .next t :=
  if_pos (.inl h)

/-- A step that emits an event never ends while the collaborators are silent (70_reset_and_hazards.md R181). -/
theorem whenReturned_of_emits {t : State} (hev : s.evReady = false) (h : t.events.length ≠ s.events.length) :
    whenReturned s (.next t) = .fault .collaboratorSilent :=
  if_neg (by simp [hev, h])

end

end Sys2Proof.Machine
end

section
/-!
The statements about reset and the step, and about what a step needs to end.
-/

namespace Sys2Proof

open Machine

/-- Settles O16: the step is `applyReset`, field by field. -/
theorem resetStep : Obligations.ResetStep := by
  intro s hr
  exact ⟨applyReset s, by simp [step, runSequencer, hr], by simp⟩

/-- Settles O17: a closed state. -/
theorem resetStateValues : Obligations.ResetStateValues := by
  unfold Obligations.ResetStateValues
  decide

/-- Settles O18: in IDLE no data is waited for, so the step is the instruction, once its collaborators have returned. -/
theorem stepRunsPresentedCommand : Obligations.StepRunsPresentedCommand := by
  intro s w rest i hr hn hq hc hd
  have hstep : step s = whenReturned s (exec i (popCommand rest (beginStep s))) := by
    rw [step_of_uncut hr hn, whenSupplied_of_data _ (by simp [hq]), advance_of_command hq hc hd]
  refine ⟨fun hev => ?ready, fun hev => ⟨fun t ht => ?next, fun f hf => ?fault, fun q hq => ?refused⟩⟩
  case ready =>
    rw [hstep, whenReturned_ready _ hev]
    rfl
  case next =>
    rw [hstep]
    change exec i (popCommand rest (beginStep s)) = .next t at ht
    rw [ht]
    split
    case isTrue hsilent => exact whenReturned_of_silent hsilent
    case isFalse hemits => exact whenReturned_of_emits hev hemits
  case fault =>
    rw [hstep]
    change exec i (popCommand rest (beginStep s)) = .fault f at hf
    rw [hf]
    rfl
  case refused =>
    rw [hstep]
    change exec i (popCommand rest (beginStep s)) = .refused q at hq
    rw [hq]
    rfl

/-- Settles O19: a wait emits nothing, so it ends whatever the collaborators do. -/
theorem idleBlockWaits : Obligations.IdleBlockWaits := by
  intro s hr hn hw hq hc
  rw [step_of_uncut hr hn, whenSupplied_of_data _ (by simp [hq]), advance_of_waiting hw hq hc]
  exact whenReturned_of_silent rfl

/-- Settles O20: the decoder rejects the word, and the step only answers. -/
theorem reservedCommandAnswersZero : Obligations.ReservedCommandAnswersZero := by
  intro s w rest hr hn hw hq hc hop
  refine ⟨complete false (popCommand rest (beginStep s)), ?step, rfl, rfl, ?registers, ?data, rfl, _, rfl⟩
  case step =>
    have hd : decode w = .error (.reservedOp (opField w)) := decode_eq_error.mpr ⟨hop, rfl⟩
    rw [step_of_uncut hr hn, whenSupplied_of_data _ (by simp [hq]), advance_of_reserved hw hq hc hd]
    exact whenReturned_of_silent rfl
  case registers => simp [SameRegisters, SameSetting, SameSplitter]
  case data => simp [SameData]

/-- Settles O21: reset keeps the list, and so do both sequencer steps of a WRITE in progress, cut or whole. -/
theorem busyBlockTakesNoCommand : Obligations.BusyBlockTakesNoCommand := by
  intro s t hbusy h
  have hkeeps : ∀ {u}, s.cfg.wellFormed = true → advance (beginStep s) = .next u → u.cmdIn = s.cmdIn := by
    intro u hw hu
    obtain ⟨v, hv, hcmd, -⟩ := advance_of_busy hw hbusy
    rw [hv] at hu
    cases hu
    exact hcmd
  rcases step_next h with ⟨-, rfl⟩ | ⟨-, hw, p, u, -, hu, -, -, rfl⟩ | ⟨-, hw, -, ht, -, -⟩
  · exact applyReset_cmdIn s
  · rw [abandon_cmdIn, hkeeps hw hu]
  · exact hkeeps hw ht

/-- Settles O22: the guard of each state of `seq` is met, and every command answers. -/
theorem suppliedStepAlwaysCompletes : Obligations.SuppliedStepAlwaysCompletes := by
  intro s hready hdata
  obtain ⟨-, -, hw, -, hsplit⟩ := id hready
  rw [step_of_ready hready hdata]
  cases hq : s.seq with
  | idle =>
    cases hc : s.cmdIn with
    | nil => exact ⟨_, advance_of_waiting hw hq hc⟩
    | cons w rest =>
      cases hd : decode w with
      | ok i =>
        rw [advance_of_command hq hc hd]
        exact exec_answers i hw hsplit
      | error e => exact ⟨_, advance_of_reserved hw hq hc hd⟩
  | wPage => exact ⟨_, advance_of_page hw hq⟩
  | wDly => exact ⟨_, advance_of_delay hw hq⟩

/-- Settles O23: the next action of a WRITE in progress emits an event, which silent collaborators never return. -/
theorem silentCollaboratorSticks : Obligations.SilentCollaboratorSticks := by
  intro s hr hn hw hev hq hdata
  obtain ⟨u, hu, -, hemits⟩ := advance_of_busy hw hq
  rw [step_of_uncut hr hn, whenSupplied_of_data _ hdata, hu]
  exact whenReturned_of_emits hev hemits.ne'

/-- Settles O24: the guard on the write data is not met. -/
theorem dryWriteDataSticks : Obligations.DryWriteDataSticks := by
  intro s hr hn hw hq hdry
  rw [step_of_uncut hr hn, whenSupplied, if_pos ⟨hw, hq, hdry⟩]
  rfl

/-- Settles O25: every instruction ends in the guard on the descriptor, and WRITE's guard on the page size looks at the
descriptor first. -/
theorem illFormedDescriptorRefused : Obligations.IllFormedDescriptorRefused := by
  intro i s hw
  cases i with
  | write addr len =>
    simp only [exec, execWrite]
    split
    · exact whenWellFormed_of_ill _ hw
    · rw [whenPageSized, if_neg (by simp [hw])]
      exact whenWellFormed_of_ill _ hw
  | init | read | read1 | wpa | wpc => exact whenWellFormed_of_ill _ hw

/-- Settles O32: READ answers what the checks say; the accepting step of a WRITE answers `ok = 0` only when they fail. -/
theorem checksPassExactlyInRange : Obligations.ChecksPassExactlyInRange := by
  intro s addr len hw hsplit
  by_cases hp : Passes s addr len
  case pos =>
    have hsize := one_le_toNat.mp (one_le_effectivePageSize len hw hsplit)
    exact ⟨⟨_, exec_read_of_passes hp hw, fun _ => responded_performRead addr len s, fun hn => absurd hp hn⟩,
      _, exec_write_of_pageSize hp hw hsize,
      fun h => absurd h (not_responded_false_acceptWrite addr len s), fun hn => absurd hp hn⟩
  case neg =>
    exact ⟨⟨_, exec_read_of_fails hp hw, fun h => absurd h hp, fun _ => responded_complete false s⟩,
      _, exec_write_of_not_passes hp hw, fun _ => hp, fun _ => responded_complete false s⟩

/-- Settles O36: `delayNext` field by field, at the last page and before it. -/
theorem delayStepCountsPages : Obligations.DelayStepCountsPages := by
  intro s hready hq hpages
  refine ⟨delayNext s, step_of_delay hready hq, delayNext_events s, delayNext_pg s, fun hlast => ?last,
    fun hmore => ?more, delayNext_addrL s, delayNext_lenL s, delayNext_eps s, delayNext_curOff s, delayNext_bytesSent s,
    sameSetting_delayNext s, delayNext_mode s, delayNext_dar s, sameData_delayNext s, delayNext_cmdIn s,
    delayNext_delayCut s⟩
  case last => exact delayNext_of_last (by simp [hlast])
  case more =>
    have hne : s.pg.toNat ≠ 1 := fun h => hmore (BitVec.eq_of_toNat_eq h)
    exact delayNext_of_more (by omega)

/-- Settles O54: the effective page size is SPLIT_PAGE or the device's own, which is not 0. -/
theorem zeroPageSizeRefused : Obligations.ZeroPageSizeRefused := by
  intro s addr len hw hp
  have hzero : effectivePageSize s.params s.cfg len = 0#8
      ↔ s.params.splitPage = 0#8 ∧ 1 < s.cfg.addressWidth.toNat ∧ s.params.splitLen < len.toNat := by
    unfold effectivePageSize
    split
    case isTrue hsplit => simp [hsplit]
    case isFalse hsplit => simp [pageSize_ne_zero hw, hsplit]
  rw [← hzero]
  constructor
  · intro h
    by_contra hsize
    rw [exec_write_of_pageSize hp hw hsize] at h
    cases h
  · exact exec_write_of_zeroPageSize hp hw

/-- Settles O34: the device's own page size is the effective one, and the page count of the length 0 is 1 exactly for
`formula` with an offset. -/
theorem zeroLengthWrite : Obligations.ZeroLengthWrite := by
  intro s addr hw hp
  have hsize : effectivePageSize s.params s.cfg 0#17 = s.cfg.pageSize := effectivePageSize_zero _ _
  have hne := pageSize_ne_zero hw
  have hoff := latchWrite_curOff_toNat addr 0#17 s (by rw [hsize]; exact one_le_toNat.mpr hne)
  have hpg := latchWrite_pg_toNat addr 0#17 s hw hp
  rw [hsize] at hoff hpg
  refine ⟨acceptWrite addr 0#17 s, exec_write_of_pageSize hp hw (by rwa [hsize]), acceptWrite_addrL ..,
    acceptWrite_lenL .., by rw [acceptWrite_eps, hsize], by rw [acceptWrite_curOff, hoff], acceptWrite_bytesSent .., acceptWrite_events ..,
    sameSetting_acceptWrite .., acceptWrite_mode .., acceptWrite_dar .., sameData_acceptWrite .., acceptWrite_cmdIn .., ?_⟩
  split
  case isTrue hnone =>
    have hzero : (latchWrite addr 0#17 s).pg = 0#17 := by
      apply BitVec.eq_of_toNat_eq
      rw [hpg]
      rcases hnone with hz | haligned
      · simp [pageCount, hz]
      · simp [pageCount, pagesByFormula, haligned]
    rw [acceptWrite, if_pos hzero]
    exact ⟨hzero, rfl, responded_complete true (latchWrite addr 0#17 s)⟩
  case isFalse hloop =>
    obtain ⟨hz, hoffset⟩ := not_or.mp hloop
    have hlt : addr.toNat % s.cfg.pageSize.toNat < s.cfg.pageSize.toNat := Nat.mod_lt _ (one_le_toNat.mpr hne)
    have hone : (latchWrite addr 0#17 s).pg = 1#17 := by
      apply BitVec.eq_of_toNat_eq
      rw [hpg, pageCount, if_neg (by simp [hz]), pagesByFormula, if_neg (by simpa using hoffset),
        Nat.div_eq_of_lt (by simp; omega)]
      rfl
    rw [acceptWrite_of_pg_ne addr 0#17 s (by rw [hone]; decide)]
    exact ⟨hone, rfl, rfl⟩

end Sys2Proof
end

section
/-!
A reset inside a step (00_scope.md R19, log 20): when a step reaches the point, and what becomes of the streams around the
outstanding event.
-/

namespace Sys2Proof.Machine

/-- Only W-PAGE writes a register, and the count of that WR is the chunk (42_write_splitter.md R117). -/
theorem StepEmits.of_wr {s t : State} {es : List Event} (h : StepEmits s t es) {da : DevAddr} {form : BitVec 2}
    {reg : BitVec 16} {n : BitVec 17} {bytes : List Byte} (hm : Event.wr da form reg n bytes ∈ es) :
    s.seq = .wPage ∧ n.toNat = nextChunk s := by
  cases h with
  | pins hseq hdar hcut hpins => simpa using hpins _ hm
  | read a m hseq hdar hcut =>
    rcases List.mem_append.mp hm with hsel | hrd
    · simpa using (mem_selectEvents hsel).2
    · simp at hrd
  | page hseq hnext =>
    rcases List.mem_append.mp hm with hsel | hwr
    · simpa using (mem_selectEvents hsel).2
    · obtain ⟨-, -, -, rfl, -⟩ : _ ∧ _ ∧ _ ∧ n = BitVec.ofNat 17 (nextChunk s) ∧ _ := by simpa using hwr
      exact ⟨hseq, ofNat_nextChunk_toNat s⟩
  | delay hseq hnext => simp at hm

/-- The bytes of an outstanding WR are those of the chunk, so the write data stream has as many of them as have moved when
it has as many of the chunk (70_reset_and_hazards.md R183). -/
theorem bytesThere_emittedAt {p : ResetPoint} {s u : State} (hu : StepEffect s u)
    (hdata : s.seq = .wPage → min p.moved (nextChunk s) ≤ s.wd.length) :
    bytesThere p.moved (emittedAt p s u).getLast? s = true := by
  obtain ⟨es, hev, hes⟩ := StepEffect.emits hu
  unfold bytesThere
  split
  case h_2 => rfl
  case h_1 da form reg n bytes hlast =>
    have hm : Event.wr da form reg n bytes ∈ es :=
      stepEvents_of_append hev ▸ mem_emittedAt (List.mem_of_getLast? hlast)
    obtain ⟨hseq, hn⟩ := hes.of_wr hm
    rw [hn]
    exact decide_eq_true (hdata hseq)

/-- A step reaches a point among its events, with silent collaborators the first at most, if the bytes moved are there. -/
theorem reaches_of_data {p : ResetPoint} {s u : State} (hu : StepEffect s u) (hlen : p.emitted ≤ (stepEvents s u).length)
    (hev : s.evReady = true ∨ p.emitted ≤ 1) (hdata : s.seq = .wPage → min p.moved (nextChunk s) ≤ s.wd.length) :
    reaches p s u = true := by
  rw [reaches, bytesThere_emittedAt hu hdata]
  simpa [hlen] using hev

/-! ### The streams after a cut, by the event left outstanding (log 20) -/

section
variable {p : ResetPoint} {s u : State}

theorem abandon_streams_of_wr {da : DevAddr} {form : BitVec 2} {reg : BitVec 16} {n : BitVec 17} {bytes : List Byte}
    (h : (emittedAt p s u).getLast? = some (.wr da form reg n bytes)) :
    (abandon p s u).wd = s.wd.drop (min p.moved n.toNat) ∧ (abandon p s u).tr = s.tr ∧ (abandon p s u).rdat = s.rdat
      ∧ (abandon p s u).delayCut = s.delayCut := by
  simp [abandon, h, moveOutstanding]

theorem abandon_streams_of_rd {da : DevAddr} {form : BitVec 2} {reg : BitVec 16} {n : BitVec 17} (hu : StepEffect s u)
    (h : (emittedAt p s u).getLast? = some (.rd da form reg n)) :
    (abandon p s u).wd = s.wd ∧ (abandon p s u).tr = s.tr.drop (min p.moved n.toNat)
      ∧ (abandon p s u).rdat = u.rdat.take (s.rdat.length + p.moved) ∧ (abandon p s u).delayCut = s.delayCut := by
  obtain ⟨-, bytes, hbytes⟩ := StepEffect.grows hu
  simp [abandon, h, moveOutstanding, hbytes, List.take_append]

theorem abandon_streams_of_dly {ms : BitVec 17} (h : (emittedAt p s u).getLast? = some (.dly ms)) :
    SameData s (abandon p s u) ∧ (abandon p s u).delayCut = true := by
  simp [abandon, h, moveOutstanding, SameData]

/-- Around a SEL, a pin event or no event no byte moves. -/
theorem abandon_streams_of_dataless {e : Option Event} (he : ∀ m answer v, moveOutstanding m answer e v = v)
    (h : (emittedAt p s u).getLast? = e) :
    SameData s (abandon p s u) ∧ (abandon p s u).delayCut = s.delayCut := by
  simp [abandon, h, he, SameData]

end

end Sys2Proof.Machine
end

section
/-!
The statements about a reset inside a step.
-/

namespace Sys2Proof

open Machine

/-- Settles O55: the step reaches the point, so it is `abandon`; the events up to the point stand, the last of them cut. -/
theorem resetCutsStep : Obligations.ResetCutsStep := by
  intro s u p hr hp hu hlen hev hdata
  obtain ⟨-, he⟩ := advance_next hu
  have hcount : (emittedAt p s u).length = p.emitted := by rw [emittedAt, List.length_take, Nat.min_eq_left hlen]
  have hlast : (cutLast p.moved (emittedAt p s u)).getLast? = (emittedAt p s u).getLast?.map (cutEvent p.moved) :=
    cutLast_getLast? ..
  refine ⟨abandon p s u, cutLast p.moved (emittedAt p s u), step_of_cut hr hp hu (reaches_of_data he hlen hev hdata),
    abandon_events p s u, by rw [cutLast_length, hcount], fun k hk => ?before, hlast, abandon_mode .., abandon_seq ..,
    abandon_rspValid .., abandon_cfg .., abandon_bias .., abandon_wpPresent .., abandon_base ..,
    by rw [abandon_dar, abandon_base], abandon_cmdIn .., abandon_responses .., abandon_rstWithin .., ?streams⟩
  case before =>
    rw [cutLast_getElem? _ (by rwa [hcount]), emittedAt, List.getElem?_take_of_lt (by omega)]
  case streams =>
    rw [hlast]
    cases h : (emittedAt p s u).getLast? with
    | none => exact abandon_streams_of_dataless (fun _ _ _ => rfl) h
    | some e =>
      cases e with
      | wr => exact abandon_streams_of_wr h
      | rd => exact abandon_streams_of_rd he h
      | dly => exact abandon_streams_of_dly h
      | sel | pinOut | pin => exact abandon_streams_of_dataless (fun _ _ _ => rfl) h

/-- Settles O56: outside IDLE there is a first event to fall on (O55), and with no byte moved no stream moves. -/
theorem resetEndsWait : Obligations.ResetEndsWait := by
  intro s hr hp hw hq
  obtain ⟨u, hu, hcmd, hemits⟩ := advance_of_busy hw hq
  have hlen : 1 ≤ (stepEvents s u).length := by rw [stepEvents, List.length_drop]; omega
  obtain ⟨-, he⟩ := advance_next hu
  obtain ⟨t, es, hstep, hev, hes, -, -, hmode, hseq, hvalid, -, -, -, -, -, hcmd', hresp, -, hstreams⟩ :=
    resetCutsStep s u _ hr hp hu hlen (.inr le_rfl) (by simp)
  obtain ⟨e, rfl⟩ := List.length_eq_one_iff.mp hes
  refine ⟨t, e, hstep, hseq, hmode, hev, hresp, hvalid, hcmd'.trans hcmd, ?data⟩
  case data =>
    obtain ⟨-, bytes, hbytes⟩ := StepEffect.grows he
    cases e <;> simp_all [SameData]

end Sys2Proof
end

section
/-!
The invariant of the block (42_write_splitter.md R119, 41_address_encoder.md R101, 44_write_protect.md R142): reset
establishes it, and every instruction and every sequencer step keeps it.
-/

namespace Sys2Proof.Machine

section
variable {s t : State}

/-! ### IDLE -/

/-- In IDLE the invariant says nothing of the working registers. -/
theorem blockInv_of_idle (hdar : DarAgrees t) (hmode : ModeAgrees t) (hq : t.seq = .idle) : BlockInv t :=
  ⟨hdar, hmode, fun h => absurd hq h⟩

/-- An uninitialised idle block whose `dar` is `base` meets the invariant: both kinds of reset leave one (10_state.md
R45). -/
theorem blockInv_of_reset (hdar : t.dar = t.base) (hmode : t.mode = .uninit) (hq : t.seq = .idle) : BlockInv t := by
  refine blockInv_of_idle ?_ ?_ hq
  · rw [DarAgrees, hdar]
  · simp [ModeAgrees, hmode]

/-- The mode keeps saying whether there is a pin (44_write_protect.md R142). -/
theorem StepEffect.modeAgrees (h : StepEffect s t) (hs : ModeAgrees s) : ModeAgrees t := by
  have hwp := (StepEffect.sameSetting h).wpPresent_eq
  rw [ModeAgrees, hwp]
  rcases StepEffect.mode h with hm | ⟨-, -, hm⟩
  · rw [hm]
    exact hs
  · rw [hm]
    cases s.wpPresent <;> simp

/-! ### A WRITE in progress -/

/-- The accepting step of a WRITE begins the page loop with the working registers as the invariant has them
(42_write_splitter.md R110). -/
theorem writeInProgress_acceptWrite {addr : Addr} {len : Len} (hp : Passes s addr len) (hw : s.cfg.wellFormed = true)
    (hsize : effectivePageSize s.params s.cfg len ≠ 0#8) (hpg : (latchWrite addr len s).pg ≠ 0#17) :
    WriteInProgress (acceptWrite addr len s) := by
  have heps := one_le_toNat.mpr hsize
  have hoff := latchWrite_curOff_toNat addr len s heps
  have hcount := latchWrite_pg_toNat addr len s hw hp
  have hpos := one_le_toNat.mpr hpg
  obtain ⟨hmode, hrange⟩ := hp
  rw [acceptWrite_of_pg_ne addr len s hpg]
  refine ⟨hmode, rfl, heps, hrange, Nat.zero_le _, fun _ => ⟨hoff, hpos, ?some, ?pages⟩, fun h => by simp at h⟩
  case some =>
    rcases Nat.eq_zero_or_pos len.toNat with hzero | hlen
    · exact .inl (BitVec.eq_of_toNat_eq hzero)
    · exact .inr hlen
  case pages =>
    have hformula : pageCount s.params.zeroLenWrite (effectivePageSize s.params s.cfg len).toNat
        (addr.toNat % (effectivePageSize s.params s.cfg len).toNat) len.toNat
          = pagesByFormula (effectivePageSize s.params s.cfg len).toNat
              (addr.toNat % (effectivePageSize s.params s.cfg len).toNat) len.toNat := by
      by_cases hnone : len.toNat = 0 ∧ s.params.zeroLenWrite = .noEvent
      · rw [hcount, pageCount, if_pos hnone] at hpos
        exact absurd hpos (by decide)
      · exact if_neg hnone
    rw [setSeq_pg, hcount, hformula, setSeq_curOff, hoff]
    rfl

/-- The chunk of W-PAGE is what is left of the page or of the WRITE (42_write_splitter.md R116). -/
theorem nextChunk_of_offset (hoff : s.curOff.toNat = nextAddress s % s.eps.toNat) :
    nextChunk s = min (s.eps.toNat - nextAddress s % s.eps.toNat) (s.lenL.toNat - s.bytesSent.toNat) := by
  rw [nextChunk, hoff]

/-- W-PAGE keeps the invariant: one turn of the page loop (42_write_splitter.md R119). -/
theorem writeInProgress_pageNext (hq : s.seq = .wPage) (h : WriteInProgress s) : WriteInProgress (pageNext s) := by
  obtain ⟨hmode, heps, hpos, hrange, hsent, hpage, -⟩ := h
  obtain ⟨hoff, hpg, -, hcount⟩ := hpage hq
  have hset := sameSetting_pageNext s
  have hchunk : nextChunk s ≤ s.lenL.toNat - s.bytesSent.toNat := Nat.min_le_right ..
  have hleft : s.lenL.toNat - (s.bytesSent.toNat + nextChunk s) = s.lenL.toNat - s.bytesSent.toNat - nextChunk s := by
    omega
  simp only [WriteInProgress, nextAddress, pageNext_mode, pageNext_eps, pageNext_lenL, pageNext_addrL,
    pageNext_bytesSent, pageNext_curOff, pageNext_pg, pageNext_seq, hset.params_eq, hset.cfg_eq, hleft]
  refine ⟨hmode, heps, hpos, hrange, by omega, fun hq' => by simp at hq', fun _ => ⟨trivial, ?aligned, ?pages⟩⟩
  case aligned =>
    have halign := next_page_aligned (a := nextAddress s) (len := s.lenL.toNat - s.bytesSent.toNat) hpos
    rw [← nextChunk_of_offset hoff] at halign
    rcases halign with hall | hmultiple
    · left
      apply BitVec.eq_of_toNat_eq
      rw [pageNext_bytesSent]
      omega
    · right
      rwa [nextAddress, Nat.add_assoc] at hmultiple
  case pages =>
    have hoffset : s.curOff.toNat < s.eps.toNat := hoff ▸ Nat.mod_lt _ hpos
    have hspan : 1 ≤ s.lenL.toNat - s.bytesSent.toNat + s.curOff.toNat :=
      Nat.one_le_iff_ne_zero.mpr fun hzero => by
        rw [hcount, pagesByFormula_eq_zero.mpr hzero] at hpg
        exact absurd hpg (by decide)
    rw [hcount, pagesByFormula_turn hoffset hspan]
    rfl

/-- W-DLY with a page left begins the next page (42_write_splitter.md R119). -/
theorem writeInProgress_delayNext (hq : s.seq = .wDly) (h : WriteInProgress s) (hmore : 1 < s.pg.toNat) :
    WriteInProgress (delayNext s) := by
  obtain ⟨hmode, heps, hpos, hrange, hsent, -, hdelay⟩ := h
  obtain ⟨hoff, haligned, hcount⟩ := hdelay hq
  have hset := sameSetting_delayNext s
  have hne : s.bytesSent ≠ s.lenL := fun hall => by
    rw [hcount, hall, Nat.sub_self, pagesByFormula_eq_zero.mpr rfl] at hmore
    exact absurd hmore (by decide)
  have hlt : s.bytesSent.toNat < s.lenL.toNat := by
    have : s.bytesSent.toNat ≠ s.lenL.toNat := fun h => hne (BitVec.eq_of_toNat_eq h)
    omega
  simp only [WriteInProgress, nextAddress, delayNext_mode, delayNext_eps, delayNext_lenL, delayNext_addrL,
    delayNext_bytesSent, delayNext_curOff, delayNext_pg, (delayNext_of_more hmore).1, hset.params_eq, hset.cfg_eq]
  refine ⟨hmode, heps, hpos, hrange, hsent, fun _ => ⟨?offset, by omega, .inr hlt, ?pages⟩, fun hq' => by simp at hq'⟩
  case offset =>
    have hmultiple : (s.addrL.toNat + s.bytesSent.toNat) % s.eps.toNat = 0 := haligned.resolve_left hne
    rw [hoff, hmultiple]
    rfl
  case pages =>
    rw [hoff, hcount]
    rfl

/-! ### Every uncut step -/

/-- In IDLE only an accepted WRITE leaves IDLE, and it begins the page loop as the invariant has it. -/
theorem writeInProgress_of_exec {i : Instr} (hq : s.seq = .idle) (h : exec i s = .next t) (hbusy : t.seq ≠ .idle) :
    WriteInProgress t := by
  have hw := (exec_next h).1
  have hsame : (∀ addr len, i ≠ .write addr len) → WriteInProgress t := fun hi =>
    absurd ((exec_splitter hi h).2.trans hq) hbusy
  cases exec_cases h with
  | writeFails => exact absurd hq hbusy
  | writeAccepted addr len hp hsize =>
    refine writeInProgress_acceptWrite hp hw hsize fun hzero => hbusy ?_
    rw [acceptWrite, if_pos hzero]
    exact hq
  | init | readFails | readPerformed | read1Fails | read1Performed | wpa | wpc => exact hsame (by simp)

/-- An uncut step keeps the part of the invariant on a WRITE in progress. -/
theorem StepEffect.writeInProgress (h : StepEffect s t) (hs : s.seq ≠ .idle → WriteInProgress s) (hbusy : t.seq ≠ .idle) :
    WriteInProgress t := by
  rcases StepEffect.cases h with ⟨hq, -, rfl⟩ | ⟨hq, w, rest, i, -, -, hx⟩ | ⟨hq, w, rest, -, -, rfl⟩ | ⟨hq, rfl⟩
    | ⟨hq, rfl⟩
  · exact absurd hq hbusy
  · exact writeInProgress_of_exec (s := popCommand rest (beginStep s)) hq hx hbusy
  · exact absurd hq hbusy
  · exact writeInProgress_pageNext hq (hs (by simp [hq]))
  · have hinv := hs (by simp [hq])
    obtain ⟨-, -, -, -, -, -, hdelay⟩ := id hinv
    obtain ⟨-, -, hcount⟩ := hdelay hq
    by_cases hlast : s.pg.toNat = 1
    · exact absurd (delayNext_of_last hlast).1 hbusy
    · exact writeInProgress_delayNext hq hinv (by omega)

/-- An uncut step keeps the invariant. -/
theorem StepEffect.blockInv (h : StepEffect s t) (hw : s.cfg.wellFormed = true) (hs : BlockInv s) : BlockInv t := by
  obtain ⟨hdar, hmode, hbusy⟩ := hs
  refine ⟨h.darAgrees hdar, h.modeAgrees hmode, fun hq => ⟨?wf, h.writeInProgress (fun hq' => (hbusy hq').2) hq⟩⟩
  case wf => rwa [(StepEffect.sameSetting h).cfg_eq]

end

end Sys2Proof.Machine
end

section
/-!
The statements about the invariant.
-/

namespace Sys2Proof

open Machine

/-- Settles O52: both kinds of reset leave an uninitialised idle block with `dar = base`; an uncut step keeps each part of
the invariant. -/
theorem everyStepKeepsInvariant : Obligations.EveryStepKeepsInvariant := by
  intro s t hs h
  rcases step_next h with ⟨-, rfl⟩ | ⟨-, -, p, u, -, -, -, -, rfl⟩ | ⟨-, hw, -, -, he, -⟩
  · exact blockInv_of_reset rfl rfl rfl
  · exact blockInv_of_reset (by rw [abandon_dar, abandon_base]) (abandon_mode ..) (abandon_seq ..)
  · exact he.blockInv hw hs

/-- Settles O51: a reset step leaves an uninitialised idle block with `dar = base`, and State.reset is one. -/
theorem invariantHoldsAtReset : Obligations.InvariantHoldsAtReset := by
  refine ⟨blockInv_of_reset (by decide) rfl rfl, fun s hr => ⟨applyReset s, ?step, blockInv_of_reset rfl rfl rfl⟩⟩
  case step => simp [step, runSequencer, hr]

end Sys2Proof
end

section
/-!
One page transaction at the reference device (20_memory.md R62, 42_write_splitter.md R115 to R119), and the address a pair
of device address and register address stands for (41_address_encoder.md R103).
-/

namespace Sys2Proof.Machine

/-! ### The chunk of a WRITE in progress -/

section
variable {s : State}

/-- The chunk ends at a multiple of `eps` at the latest (42_write_splitter.md R119). -/
theorem nextChunk_le_page (hq : s.seq = .wPage) (h : WriteInProgress s) :
    nextChunk s ≤ s.eps.toNat - nextAddress s % s.eps.toNat := by
  obtain ⟨-, -, -, -, -, hpage, -⟩ := h
  obtain ⟨hoff, -⟩ := hpage hq
  rw [nextChunk_of_offset hoff]
  exact Nat.min_le_left ..

/-- A WRITE of at least one byte has a chunk of at least one byte (42_write_splitter.md R119). -/
theorem one_le_nextChunk (hq : s.seq = .wPage) (h : WriteInProgress s) (hlen : 1 ≤ s.lenL.toNat) : 1 ≤ nextChunk s := by
  obtain ⟨-, -, hpos, -, -, hpage, -⟩ := h
  obtain ⟨hoff, -, hsome, -⟩ := hpage hq
  have hleft : s.bytesSent.toNat < s.lenL.toNat := hsome.resolve_left (one_le_toNat.mp hlen)
  have hlt : nextAddress s % s.eps.toNat < s.eps.toNat := Nat.mod_lt _ hpos
  rw [nextChunk_of_offset hoff]
  omega

/-- The chunk stays in the page it starts in (42_write_splitter.md R119). -/
theorem nextChunk_in_page (hq : s.seq = .wPage) (h : WriteInProgress s) (hchunk : 1 ≤ nextChunk s) :
    (nextAddress s + nextChunk s - 1) / s.eps.toNat = nextAddress s / s.eps.toNat := by
  have hle := nextChunk_le_page hq h
  obtain ⟨-, -, hpos, -⟩ := h
  exact chunk_in_page hpos hchunk hle

/-- The chunk stays inside the device (42_write_splitter.md R111). -/
theorem nextChunk_in_device (h : WriteInProgress s) : nextAddress s + nextChunk s ≤ s.cfg.capacity.toNat := by
  obtain ⟨-, -, -, hrange, hsent, -⟩ := h
  have hchunk : nextChunk s ≤ s.lenL.toNat - s.bytesSent.toNat := Nat.min_le_right ..
  rw [nextAddress]
  omega

end

/-! ### Soundness -/

section
variable {c : Descriptor} {p : Params}

theorem faithful_of_sound (h : c.sound p = true) : c.faithful = true := by
  simp only [Descriptor.sound, Bool.and_eq_true] at h
  obtain ⟨⟨hf, -⟩, -⟩ := h
  exact hf

/-- Under a sound descriptor the effective page size divides the device's page size (70_reset_and_hazards.md R177). -/
theorem effectivePageSize_dvd (hs : c.sound p = true) (hw : c.wellFormed = true) (len : Len) :
    (effectivePageSize p c len).toNat ∣ c.pageSize.toNat := by
  unfold effectivePageSize
  split
  case isFalse => exact dvd_rfl
  case isTrue hsplit =>
    have htwo : c.addressWidth = 2#2 := (addressWidth_cases hw).resolve_left fun hone => by simp [hone] at hsplit
    have hmod : c.pageSize.toNat % p.splitPage.toNat = 0 := by
      simp only [Descriptor.sound, Bool.and_eq_true] at hs
      obtain ⟨⟨-, hsplitPage⟩, -⟩ := hs
      simpa [htwo] using hsplitPage
    exact Nat.dvd_of_mod_eq_zero hmod

/-- What shares a page shares the larger device page. -/
theorem div_eq_of_div_eq_of_dvd {m n x y : Nat} (hdvd : m ∣ n) (h : x / m = y / m) : x / n = y / n := by
  obtain ⟨k, rfl⟩ := hdvd
  rw [← Nat.div_div_eq_div_mul, ← Nat.div_div_eq_div_mul, h]

end

/-! ### One page transaction -/

section
variable {c : Descriptor} {base dar : DevAddr} {a n : Nat} {data : List Byte}

/-- The device takes a transaction at no higher an address than the block means. -/
theorem lin_updatedDar_le (hw : c.wellFormed = true) :
    lin c.overflowBits (updatedDar c base dar a) c.addressWidth (regAddr c.addressWidth a) ≤ a := by
  have hregion : (a / 256) % 2 ^ c.overflowBits.toNat ≤ a / 256 := Nat.mod_le ..
  rw [lin_updatedDar a hw]
  split <;> omega

/-- A page transaction inside the device and inside one device page stores its bytes at `a`, `a + 1`, ... (20_memory.md
R62). -/
theorem refRun_pageEvents (hw : c.wellFormed = true) (hf : c.faithful = true)
    (hdar : dar &&& ~~~overflowMask c.overflowBits = base &&& ~~~overflowMask c.overflowBits)
    (hdata : n ≤ data.length) (hrange : a + n ≤ c.capacity.toNat)
    (hpage : 1 ≤ n → (a + n - 1) / c.pageSize.toNat = a / c.pageSize.toNat) (d : RefDevice) :
    ∃ d', refRun c base d (pageEvents c base dar a n data) = some d' ∧ d'.ee = memWrite d.ee a (data.take n) := by
  obtain ⟨d₁, hsel, hee⟩ := refRun_selectEvents c base a d
  have hlen : (data.take n).length = n := by rw [List.length_take, Nat.min_eq_left hdata]
  have hcount : (BitVec.ofNat 17 n).toNat = n := Nat.mod_eq_of_lt (by have := c.capacity.isLt; omega)
  have hstore : refApply c base d₁ (.wr (updatedDar c base dar a) c.addressWidth (regAddr c.addressWidth a)
      (BitVec.ofNat 17 n) (data.take n)) = some { d₁ with ee := memWrite d₁.ee a (data.take n) } := by
    rw [refApply, if_pos (answers_updatedDar a hdar), hlen, hcount]
    rcases Nat.eq_zero_or_pos n with rfl | hpos
    · have hle := lin_updatedDar_le (base := base) (dar := dar) (a := a) hw
      rw [if_pos ⟨rfl, by simp [writeDefined]; omega⟩]
      rfl
    · rw [lin_eq_of_faithful hw hf (by omega), if_pos ⟨rfl, by simp [writeDefined, hrange, hpage hpos]⟩]
  refine ⟨{ d₁ with ee := memWrite d₁.ee a (data.take n) }, ?_, ?_⟩
  · rw [pageEvents, refRun_append, hsel, Option.bind_some, refRun, hstore]
    rfl
  · exact congrArg (memWrite · a (data.take n)) hee

end

/-- A page transaction that begins with no write cycle open is paced (20_memory.md R59). -/
theorem paced_pageEvents (ms : BitVec 17) (c : Descriptor) (base dar : DevAddr) (a n : Nat) (data : List Byte) :
    paced ms false (pageEvents c base dar a n data) = true := by
  simp [pageEvents, paced_append, paced]

/-! ### What a pair of addresses stands for -/

/-- The device address `UpdateDA` leaves is the synthesised one, when `dar` was `base` before (41_address_encoder.md
R98, R99). -/
theorem updatedDar_base (c : Descriptor) (base : DevAddr) (a : Nat) :
    updatedDar c base base a = synth base c.overflowBits a := by
  by_cases hob : c.overflowBits = 0#2
  · rw [updatedDar_of_zero base base a hob, hob, synth_zero]
  · exact updatedDar_of_ne base base a hob

/-- The pair determines the address: it fixes which address the device takes it to be (41_address_encoder.md R103). -/
theorem address_unique_of_faithful {c : Descriptor} {base : DevAddr} (hw : c.wellFormed = true) (hf : c.faithful = true)
    {a b : Nat} (ha : a < c.capacity.toNat) (hb : b < c.capacity.toNat)
    (hsynth : synth base c.overflowBits a = synth base c.overflowBits b)
    (hreg : regAddr c.addressWidth a = regAddr c.addressWidth b) : a = b := by
  rw [← updatedDar_base, ← updatedDar_base] at hsynth
  rw [← lin_eq_of_faithful (base := base) (dar := base) hw hf ha, hsynth, hreg, lin_eq_of_faithful hw hf hb]

/-- The address of the first region and the one `2^ob` regions above it have one pair with one address byte
(41_address_encoder.md R103). -/
theorem collision_above_regions (base : DevAddr) (ob : BitVec 2) :
    synth base ob 0 = synth base ob (2 ^ (8 + ob.toNat)) ∧ regAddr 1#2 0 = regAddr 1#2 (2 ^ (8 + ob.toNat)) := by
  have hpow : 2 ^ (8 + ob.toNat) = 2 ^ ob.toNat * 256 := by rw [Nat.pow_add, Nat.mul_comm]
  constructor
  · apply synth_congr_ovf
    apply BitVec.eq_of_toNat_eq
    rw [ovf_toNat, ovf_toNat, hpow]
    simp
  · apply BitVec.eq_of_toNat_eq
    rw [regAddr_one_toNat, regAddr_one_toNat, hpow]
    simp

end Sys2Proof.Machine
end

section
/-!
The statements about the pair of addresses and about one page transaction.
-/

namespace Sys2Proof

open Machine

/-- Settles O11: within the bound the pair fixes the address; above it the address 0 and the one `2^ob` regions up have
one pair. With two address bytes the bound is that of a well-formed descriptor. -/
theorem encodingFaithfulWhen : Obligations.EncodingFaithfulWhen := by
  intro c base hw
  have hcollide : c.addressWidth = 1#2 → (∀ a b : Nat, a < c.capacity.toNat → b < c.capacity.toNat →
      synth base c.overflowBits a = synth base c.overflowBits b →
      regAddr c.addressWidth a = regAddr c.addressWidth b → a = b) →
      c.capacity.toNat ≤ 2 ^ (8 + c.overflowBits.toNat) := by
    intro hone hinj
    by_contra hbig
    obtain ⟨hsynth, hreg⟩ := collision_above_regions base c.overflowBits
    have hlt := Nat.not_le.mp hbig
    have hzero := hinj 0 (2 ^ (8 + c.overflowBits.toNat)) (Nat.zero_lt_of_lt hlt) hlt hsynth (by rwa [hone])
    exact absurd hzero.symm (Nat.two_pow_pos _).ne'
  refine ⟨fun hob => ⟨fun hinj => ?bound, fun hcap => ?unique⟩, fun hone hob => ⟨hcollide hone, fun hcap => ?unique'⟩⟩
  case bound =>
    rcases addressWidth_cases hw with hone | htwo
    · simpa [hone, hob] using hcollide hone hinj
    · simpa [htwo] using capacity_le hw
  case unique =>
    have hf : c.faithful = true := by rw [Descriptor.faithful, if_pos hob]; exact decide_eq_true hcap
    exact fun a b ha hb => address_unique_of_faithful hw hf ha hb
  case unique' =>
    have hf : c.faithful = true := by rw [Descriptor.faithful, if_neg hob]; simp [hcap]
    exact fun a b ha hb => address_unique_of_faithful hw hf ha hb

/-- Settles O37: the WR of `pageNext` carries the chunk, which the invariant keeps inside its page. -/
theorem pageTransactionStaysInPage : Obligations.PageTransactionStaysInPage := by
  intro s t ⟨_, _, hbusy⟩ hr hn hq h
  obtain ⟨-, hinv⟩ := hbusy (by simp [hq])
  obtain ⟨-, he, hdata⟩ := step_next_uncut hr hn h
  have hsupplied := hdata hq
  obtain rfl := he.eq_pageNext hq
  refine ⟨_, _, _, _, _, by rw [pageNext_events, pageEvents, ← List.append_assoc], ?_⟩
  rw [ofNat_nextChunk_toNat, List.length_take, Nat.min_eq_left hsupplied]
  exact ⟨rfl, (nextChunk_le_page hq hinv).trans (Nat.sub_le ..), one_le_nextChunk hq hinv, nextChunk_in_page hq hinv⟩

/-- Settles O42: the page transaction of `pageNext` at the device; its page lies inside one device page, since the
effective page size divides the device's. -/
theorem pageStepStoresOnlyItsChunk : Obligations.PageStepStoresOnlyItsChunk := by
  intro s t d ⟨hdar, _, hbusy⟩ hsound hee hr hn hq hclosed h
  obtain ⟨hw, hinv⟩ := hbusy (by simp [hq])
  obtain ⟨-, he, hdata⟩ := step_next_uncut hr hn h
  have hsupplied := hdata hq
  obtain rfl := he.eq_pageNext hq
  have hpage : 1 ≤ nextChunk s →
      (nextAddress s + nextChunk s - 1) / s.cfg.pageSize.toNat = nextAddress s / s.cfg.pageSize.toNat := fun hchunk => by
    have heps : s.eps.toNat ∣ s.cfg.pageSize.toNat := by
      obtain ⟨-, heps, -⟩ := hinv
      rw [heps]
      exact effectivePageSize_dvd hsound hw s.lenL
    exact div_eq_of_div_eq_of_dvd heps (nextChunk_in_page hq hinv hchunk)
  obtain ⟨d', hrun, hstored⟩ := refRun_pageEvents hw (faithful_of_sound hsound) hdar hsupplied (nextChunk_in_device hinv)
    hpage d
  have hlen : (s.wd.take (nextChunk s)).length = nextChunk s := by rw [List.length_take, Nat.min_eq_left hsupplied]
  refine ⟨_, d', pageNext_events s, hrun, by rw [hstored]; exact memWrite_wf hee, ?paced, fun x hx => ?outside,
    fun k hk => ?inside⟩
  case paced =>
    rw [hclosed]
    exact paced_pageEvents ..
  case outside =>
    rw [hstored]
    exact readByte_memWrite_outside hee (by rwa [hlen])
  case inside =>
    rw [hstored, readByte_memWrite_inside hee (by rwa [hlen]), ← List.getElem?_eq_getElem, List.getElem?_take_of_lt hk]

end Sys2Proof
end

section
/-!
The run of a WRITE's page loop (42_write_splitter.md R120, R123): one turn, W-PAGE then W-DLY, and by induction on the
page count the whole loop.
-/

namespace Sys2Proof.Machine

/-! ### The device-address register and the loop's events -/

/-- Only the last `UpdateDA` counts (41_address_encoder.md R99). -/
theorem updatedDar_updatedDar (c : Descriptor) (base dar : DevAddr) (a b : Nat) :
    updatedDar c base (updatedDar c base dar a) b = updatedDar c base dar b := by
  unfold updatedDar
  split <;> rfl

/-- A page loop updates `dar` before it uses it. -/
theorem splitEvents_updatedDar (ms : BitVec 17) (c : Descriptor) (base dar : DevAddr) (x eps pages a off left : Nat)
    (data : List Byte) :
    splitEvents ms c base (updatedDar c base dar x) eps pages a off left data
      = splitEvents ms c base dar eps pages a off left data := by
  induction pages generalizing a off left data with
  | zero => rfl
  | succ n ih => rw [splitEvents, splitEvents, updatedDar_updatedDar, ih]

/-- The events of a page loop begin with those of one page transaction and its delay. -/
theorem splitEvents_succ (ms : BitVec 17) (c : Descriptor) (base dar : DevAddr) (eps pages a off left : Nat)
    (data : List Byte) :
    splitEvents ms c base dar eps (pages + 1) a off left data
      = pageEvents c base dar a (min (eps - off) left) data ++ [.dly ms]
          ++ splitEvents ms c base dar eps pages (a + min (eps - off) left) 0 (left - min (eps - off) left)
              (data.drop (min (eps - off) left)) := by
  simp [splitEvents, pageEvents]

/-! ### One turn of the loop -/

/-- The state after W-PAGE and W-DLY (42_write_splitter.md R120). -/
def turnNext (s : State) : State := delayNext (pageNext s)

/-- The bytes a WRITE in progress has still to send. -/
def bytesLeft (s : State) : Nat := s.lenL.toNat - s.bytesSent.toNat

section
variable (s : State)

@[simp] theorem turnNext_events : (turnNext s).events
    = s.events ++ (pageEvents s.cfg s.base s.dar (nextAddress s) (nextChunk s) s.wd ++ [.dly s.params.tWcMs]) := by
  rw [turnNext, delayNext_events, pageNext_events, (sameSetting_pageNext s).params_eq, List.append_assoc]
@[simp] theorem turnNext_dar : (turnNext s).dar = updatedDar s.cfg s.base s.dar (nextAddress s) := by simp [turnNext]
@[simp] theorem turnNext_wd : (turnNext s).wd = s.wd.drop (nextChunk s) := by
  rw [turnNext, (sameData_delayNext _).wd_eq]
  exact issueWrite_wd ..
@[simp] theorem turnNext_tr : (turnNext s).tr = s.tr := by
  rw [turnNext, (sameData_delayNext _).tr_eq, pageNext_tr]
@[simp] theorem turnNext_rdat : (turnNext s).rdat = s.rdat := by
  rw [turnNext, (sameData_delayNext _).rdat_eq, pageNext_rdat]
@[simp] theorem turnNext_cmdIn : (turnNext s).cmdIn = s.cmdIn := by simp [turnNext]
@[simp] theorem turnNext_mode : (turnNext s).mode = s.mode := by simp [turnNext]
@[simp] theorem turnNext_addrL : (turnNext s).addrL = s.addrL := by simp [turnNext]
@[simp] theorem turnNext_lenL : (turnNext s).lenL = s.lenL := by simp [turnNext]
@[simp] theorem turnNext_eps : (turnNext s).eps = s.eps := by simp [turnNext]
@[simp] theorem turnNext_curOff : (turnNext s).curOff = 0#8 := by simp [turnNext]
@[simp] theorem turnNext_bytesSent : (turnNext s).bytesSent.toNat = s.bytesSent.toNat + nextChunk s := by simp [turnNext]
@[simp] theorem turnNext_pg : (turnNext s).pg.toNat = s.pg.toNat - 1 := by simp [turnNext]
theorem sameSetting_turnNext : SameSetting s (turnNext s) :=
  (sameSetting_pageNext s).trans (sameSetting_delayNext _)

/-- A turn goes on by the chunk. -/
theorem nextAddress_turnNext : nextAddress (turnNext s) = nextAddress s + nextChunk s := by
  simp [nextAddress, Nat.add_assoc]

theorem bytesLeft_turnNext : bytesLeft (turnNext s) = bytesLeft s - nextChunk s := by
  simp [bytesLeft, Nat.sub_sub]

variable {s}

/-- The last turn completes the WRITE. -/
theorem turnNext_of_last (h : s.pg.toNat = 1) : (turnNext s).seq = .idle ∧ Responded true s (turnNext s) := by
  obtain ⟨hseq, hvalid, b, hb⟩ := delayNext_of_last (s := pageNext s) (by simpa using h)
  exact ⟨hseq, hvalid, b, by rw [turnNext, hb, pageNext_responses]⟩

/-- Any other turn leaves a WRITE in progress, without a response. -/
theorem turnNext_of_more (h : 1 < s.pg.toNat) (hq : s.seq = .wPage) (hinv : WriteInProgress s) :
    (turnNext s).seq = .wPage ∧ (turnNext s).responses = s.responses ∧ WriteInProgress (turnNext s) := by
  have hmore : 1 < (pageNext s).pg.toNat := by simpa using h
  obtain ⟨hseq, -, hresp⟩ := delayNext_of_more hmore
  exact ⟨hseq, by rw [turnNext, hresp, pageNext_responses],
    writeInProgress_delayNext (pageNext_seq s) (writeInProgress_pageNext hq hinv) hmore⟩

/-- The last page takes all that is left (42_write_splitter.md R119). -/
theorem nextChunk_of_last (hq : s.seq = .wPage) (hinv : WriteInProgress s) (h : s.pg.toNat = 1) :
    nextChunk s = bytesLeft s := by
  obtain ⟨-, -, -, -, -, -, hdelay⟩ := writeInProgress_pageNext hq hinv
  obtain ⟨-, -, hpages⟩ := hdelay (pageNext_seq s)
  rw [pageNext_pg, h, Nat.right_eq_add, pagesByFormula_eq_zero, pageNext_lenL, pageNext_bytesSent] at hpages
  have hle : nextChunk s ≤ s.lenL.toNat - s.bytesSent.toNat := Nat.min_le_right ..
  rw [bytesLeft]
  omega

/-- A ready block that has its data takes the turn in two steps. -/
theorem run_turn (hready : Ready s) (hq : s.seq = .wPage) (hdata : nextChunk s ≤ s.wd.length) :
    Host.Core.run core 2 s = .next (turnNext s) := by
  have hpage : core.step s = .next (pageNext s) := step_of_page hready hq hdata
  have hdelay : core.step (pageNext s) = .next (turnNext s) :=
    step_of_delay (hready.of_sameSetting (sameSetting_pageNext s)) (pageNext_seq s)
  simp only [Host.Core.run, hpage, hdelay]

end

/-! ### The whole loop -/

/-- The first address of the last page of a WRITE in progress (42_write_splitter.md R115). -/
def lastPage (s : State) : Nat :=
  max (nextAddress s) ((s.addrL.toNat + s.lenL.toNat - 1) / s.eps.toNat * s.eps.toNat)

/-- The page loop of the WRITE in progress in `s` has ended in `t` (42_write_splitter.md R120, R123). -/
structure LoopDone (s t : State) : Prop where
  events : t.events = s.events ++ splitEvents s.params.tWcMs s.cfg s.base s.dar s.eps.toNat s.pg.toNat (nextAddress s)
    s.curOff.toNat (bytesLeft s) s.wd
  wd : t.wd = s.wd.drop (bytesLeft s)
  dar : t.dar = updatedDar s.cfg s.base s.dar (lastPage s)
  seq : t.seq = .idle
  pg : t.pg = 0#17
  curOff : t.curOff = 0#8
  bytesSent : t.bytesSent = s.lenL
  addrL : t.addrL = s.addrL
  lenL : t.lenL = s.lenL
  eps : t.eps = s.eps
  cmdIn : t.cmdIn = s.cmdIn
  setting : SameSetting s t
  mode : t.mode = s.mode
  tr : t.tr = s.tr
  rdat : t.rdat = s.rdat
  responded : Responded true s t

section
variable {s t : State}

/-- The last page starts at the next address when it takes all that is left. -/
theorem lastPage_of_last (hq : s.seq = .wPage) (hinv : WriteInProgress s) (hlen : 1 ≤ s.lenL.toNat)
    (hall : nextChunk s = bytesLeft s) : lastPage s = nextAddress s := by
  have hpage := nextChunk_in_page hq hinv (one_le_nextChunk hq hinv hlen)
  obtain ⟨-, -, -, -, hsent, -⟩ := hinv
  have hend : nextAddress s + nextChunk s - 1 = s.addrL.toNat + s.lenL.toNat - 1 := by
    rw [hall, nextAddress, bytesLeft]
    omega
  rw [hend] at hpage
  rw [lastPage, hpage]
  exact Nat.max_eq_left (Nat.div_mul_le_self ..)

/-- A turn before the last leaves the last page where it was: the next page starts at a multiple of `eps` before the end. -/
theorem lastPage_turnNext (hq : (turnNext s).seq = .wPage) (hinv : WriteInProgress (turnNext s))
    (hlen : 1 ≤ s.lenL.toNat) : lastPage (turnNext s) = lastPage s := by
  obtain ⟨-, -, -, -, -, hpage, -⟩ := hinv
  obtain ⟨hoff, -, hsome, -⟩ := hpage hq
  simp only [turnNext_curOff, nextAddress_turnNext, turnNext_eps, turnNext_lenL, turnNext_bytesSent] at hoff hsome
  have hbefore : nextAddress s + nextChunk s ≤ s.addrL.toNat + s.lenL.toNat - 1 := by
    have := hsome.resolve_left (one_le_toNat.mp hlen)
    rw [nextAddress]
    omega
  have hmultiple : (nextAddress s + nextChunk s) / s.eps.toNat * s.eps.toNat = nextAddress s + nextChunk s :=
    Nat.div_mul_cancel (Nat.dvd_of_mod_eq_zero hoff.symm)
  have hle : nextAddress s + nextChunk s ≤ (s.addrL.toNat + s.lenL.toNat - 1) / s.eps.toNat * s.eps.toNat := by
    rw [← hmultiple]
    exact Nat.mul_le_mul_right _ (Nat.div_le_div_right hbefore)
  rw [lastPage, lastPage, nextAddress_turnNext, turnNext_addrL, turnNext_lenL, turnNext_eps, Nat.max_eq_right hle,
    Nat.max_eq_right (by omega)]

/-- One turn ends the loop when one page is left. -/
theorem loopDone_of_last (hq : s.seq = .wPage) (hinv : WriteInProgress s) (hlen : 1 ≤ s.lenL.toNat)
    (hone : s.pg.toNat = 1) : LoopDone s (turnNext s) := by
  have hall := nextChunk_of_last hq hinv hone
  obtain ⟨hseq, hresp⟩ := turnNext_of_last hone
  have hsent : s.bytesSent.toNat ≤ s.lenL.toNat := by
    obtain ⟨-, -, -, -, hsent, -⟩ := hinv
    exact hsent
  have hchunk : min (s.eps.toNat - s.curOff.toNat) (bytesLeft s) = nextChunk s := rfl
  exact
    { events := by rw [turnNext_events, hone, splitEvents_succ, hchunk, splitEvents, List.append_nil]
      wd := by rw [turnNext_wd, hall]
      dar := by rw [turnNext_dar, lastPage_of_last hq hinv hlen hall]
      seq := hseq
      pg := BitVec.eq_of_toNat_eq (by rw [turnNext_pg, hone]; rfl)
      curOff := turnNext_curOff s
      bytesSent := BitVec.eq_of_toNat_eq (by rw [turnNext_bytesSent, hall, bytesLeft]; omega)
      addrL := turnNext_addrL s
      lenL := turnNext_lenL s
      eps := turnNext_eps s
      cmdIn := turnNext_cmdIn s
      setting := sameSetting_turnNext s
      mode := turnNext_mode s
      tr := turnNext_tr s
      rdat := turnNext_rdat s
      responded := hresp }

/-- One turn and the rest of the loop. -/
theorem loopDone_of_more (hq : s.seq = .wPage) (hinv : WriteInProgress s) (hlen : 1 ≤ s.lenL.toNat)
    (hmore : 1 < s.pg.toNat) (h : LoopDone (turnNext s) t) : LoopDone s t := by
  obtain ⟨hseq, hresp, hinv'⟩ := turnNext_of_more hmore hq hinv
  have hset := sameSetting_turnNext s
  have hchunk : min (s.eps.toNat - s.curOff.toNat) (bytesLeft s) = nextChunk s := rfl
  have hle : nextChunk s ≤ bytesLeft s := Nat.min_le_right ..
  have hpages : s.pg.toNat = s.pg.toNat - 1 + 1 := by omega
  exact
    { events := by
        rw [h.events, turnNext_events, hset.params_eq, hset.cfg_eq, hset.base_eq, turnNext_dar, splitEvents_updatedDar,
          turnNext_eps, turnNext_pg, nextAddress_turnNext, turnNext_curOff, bytesLeft_turnNext, turnNext_wd, hpages,
          splitEvents_succ, hchunk, Nat.add_sub_cancel, List.append_assoc]
        rfl
      wd := by rw [h.wd, turnNext_wd, bytesLeft_turnNext, List.drop_drop, Nat.add_sub_cancel' hle]
      dar := by
        rw [h.dar, hset.cfg_eq, hset.base_eq, turnNext_dar, updatedDar_updatedDar, lastPage_turnNext hseq hinv' hlen]
      seq := h.seq
      pg := h.pg
      curOff := h.curOff
      bytesSent := h.bytesSent.trans (turnNext_lenL s)
      addrL := h.addrL.trans (turnNext_addrL s)
      lenL := h.lenL.trans (turnNext_lenL s)
      eps := h.eps.trans (turnNext_eps s)
      cmdIn := h.cmdIn.trans (turnNext_cmdIn s)
      setting := hset.trans h.setting
      mode := h.mode.trans (turnNext_mode s)
      tr := h.tr.trans (turnNext_tr s)
      rdat := h.rdat.trans (turnNext_rdat s)
      responded := by
        obtain ⟨hvalid, b, hb⟩ := h.responded
        exact ⟨hvalid, b, by rw [hb, hresp]⟩ }

/-- The page loop of a ready block that has its data runs to its end, two steps for each page (42_write_splitter.md
R123). -/
theorem run_pageLoop {n : Nat} (hpages : s.pg.toNat = n + 1) (hready : Ready s) (hq : s.seq = .wPage)
    (hinv : WriteInProgress s) (hlen : 1 ≤ s.lenL.toNat) (hdata : bytesLeft s ≤ s.wd.length) :
    ∃ t, Host.Core.run core (2 * (n + 1)) s = .next t ∧ LoopDone s t := by
  have hle : nextChunk s ≤ bytesLeft s := Nat.min_le_right ..
  have hturn := run_turn hready hq (hle.trans hdata)
  induction n generalizing s with
  | zero => exact ⟨turnNext s, hturn, loopDone_of_last hq hinv hlen hpages⟩
  | succ n ih =>
    have hmore : 1 < s.pg.toNat := by omega
    obtain ⟨hseq, -, hinv'⟩ := turnNext_of_more hmore hq hinv
    have hdata' : bytesLeft (turnNext s) ≤ (turnNext s).wd.length := by
      rw [bytesLeft_turnNext, turnNext_wd, List.length_drop]
      omega
    have hready' := hready.of_sameSetting (sameSetting_turnNext s)
    have hle' : nextChunk (turnNext s) ≤ bytesLeft (turnNext s) := Nat.min_le_right ..
    obtain ⟨t, hrun, hdone⟩ := ih (by rw [turnNext_pg]; omega) hready' hseq hinv' (by rwa [turnNext_lenL]) hdata' hle'
      (run_turn hready' hseq (hle'.trans hdata'))
    refine ⟨t, ?_, loopDone_of_more hq hinv hlen hmore hdone⟩
    rw [show 2 * (n + 1 + 1) = 2 + 2 * (n + 1) by omega, run_add hturn, hrun]

end

end Sys2Proof.Machine
end

section
/-!
The accepting step of a WRITE that passes its checks, and what the events of its page loop are and do to the reference
device (42_write_splitter.md R128, 20_memory.md R62).
-/

namespace Sys2Proof.Machine

/-! ### Accepting the WRITE -/

section
variable {s : State} {addr : Addr} {len : Len}

/-- A WRITE of at least one byte has the formula's page count (42_write_splitter.md R114). -/
theorem latchWrite_pg_of_pos (hw : s.cfg.wellFormed = true) (hp : Passes s addr len) (hlen : 1 ≤ len.toNat) :
    (latchWrite addr len s).pg.toNat
      = (len.toNat + addr.toNat % (effectivePageSize s.params s.cfg len).toNat - 1)
          / (effectivePageSize s.params s.cfg len).toNat + 1 := by
  rw [latchWrite_pg_toNat addr len s hw hp, pageCount_of_pos _ _ _ hlen]

/-- A ready idle block that is presented a passing WRITE of at least one byte begins its page loop (42_write_splitter.md
R121). -/
theorem run_accept {rest : List CmdWord} (hready : Ready s) (hq : s.seq = .idle)
    (hc : s.cmdIn = encode (.write addr len) :: rest) (hp : Passes s addr len) (hlen : 1 ≤ len.toNat) :
    ∃ u, Host.Core.run core 1 s = .next u ∧ u = setSeq .wPage (latchWrite addr len (popCommand rest (beginStep s)))
      ∧ WriteInProgress u := by
  obtain ⟨-, -, hw, -, hsplit⟩ := id hready
  have hsize := one_le_toNat.mp (one_le_effectivePageSize len hw hsplit)
  have hpass : Passes (popCommand rest (beginStep s)) addr len := hp
  have hpg : (latchWrite addr len (popCommand rest (beginStep s))).pg ≠ 0#17 :=
    one_le_toNat.mp (latchWrite_pg_of_pos (s := popCommand rest (beginStep s)) hw hpass hlen ▸ Nat.le_add_left ..)
  have hstep : core.step s = .next (acceptWrite addr len (popCommand rest (beginStep s))) :=
    (step_of_command hready hq hc (decodeEncodeRoundTrip _)).trans (exec_write_of_pageSize hpass hw hsize)
  have hinv := writeInProgress_acceptWrite hpass hw hsize hpg
  rw [acceptWrite_of_pg_ne addr len _ hpg] at hstep hinv
  exact ⟨_, by simp only [Host.Core.run, hstep], rfl, hinv⟩

/-- A ready idle block that is presented a passing READ issues it and answers (43_read.md R132, R133). -/
theorem run_read {rest : List CmdWord} (hready : Ready s) (hq : s.seq = .idle)
    (hc : s.cmdIn = encode (.read addr len) :: rest) (hp : Passes s addr len) :
    ∃ t, Host.Core.run core 1 s = .next t ∧ t.seq = .idle ∧ t.cmdIn = rest
      ∧ t.events = s.events ++ selectEvents s.cfg s.base addr.toNat
          ++ [.rd (updatedDar s.cfg s.base s.dar addr.toNat) s.cfg.addressWidth
                (regAddr s.cfg.addressWidth addr.toNat) len]
      ∧ t.rdat = s.rdat ++ transportAnswer len.toNat s ∧ Responded true s t := by
  obtain ⟨-, -, hw, -, -⟩ := id hready
  have hpass : Passes (popCommand rest (beginStep s)) addr len := hp
  have hstep : core.step s = .next (performRead addr len (popCommand rest (beginStep s))) :=
    (step_of_command hready hq hc (decodeEncodeRoundTrip _)).trans (exec_read_of_passes hpass hw)
  exact ⟨performRead addr len (popCommand rest (beginStep s)), by simp only [Host.Core.run, hstep],
    (performRead_seq ..).trans hq, performRead_cmdIn .., performRead_events .., performRead_rdat ..,
    responded_performRead ..⟩

end

/-! ### The kinds of the loop's events -/

/-- The kinds of one page's events (42_write_splitter.md R128). -/
def pageKinds (c : Descriptor) : List (BitVec 3) := if c.overflowBits = 0#2 then [1#3, 3#3] else [0#3, 1#3, 3#3]

/-- The events of a page loop are one group for each page (42_write_splitter.md R128). -/
theorem splitEvents_kinds (ms : BitVec 17) (c : Descriptor) (base dar : DevAddr) (eps pages a off left : Nat)
    (data : List Byte) :
    (splitEvents ms c base dar eps pages a off left data).map eventKind
      = (List.replicate pages (pageKinds c)).flatten := by
  induction pages generalizing a off left data with
  | zero => rfl
  | succ n ih =>
    have hpage : (pageEvents c base dar a (min (eps - off) left) data ++ [Event.dly ms]).map eventKind = pageKinds c := by
      unfold pageEvents selectEvents pageKinds
      split <;> rfl
    rw [splitEvents_succ, List.map_append, hpage, ih, List.replicate_succ, List.flatten_cons]

/-! ### The loop at the reference device -/

section
variable {c : Descriptor} {base dar : DevAddr}

/-- A page loop inside a sound device stores its data in order, page after page (42_write_splitter.md R119, 20_memory.md
R62). -/
theorem refRun_splitEvents (ms : BitVec 17) {eps : Nat} (hw : c.wellFormed = true) (hf : c.faithful = true)
    (hdar : dar &&& ~~~overflowMask c.overflowBits = base &&& ~~~overflowMask c.overflowBits)
    (hpos : 1 ≤ eps) (hdvd : eps ∣ c.pageSize.toNat) {pages a off left : Nat} {data : List Byte}
    (hoff : 1 ≤ left + off → off = a % eps) (hpages : pages = pagesByFormula eps off left) (hdata : left ≤ data.length)
    (hrange : a + left ≤ c.capacity.toNat) (d : RefDevice) :
    ∃ d', refRun c base d (splitEvents ms c base dar eps pages a off left data) = some d'
      ∧ d'.ee = memWrite d.ee a (data.take left) := by
  induction pages generalizing a off left data d with
  | zero =>
    obtain rfl : left = 0 := by
      have := pagesByFormula_eq_zero.mp hpages.symm
      omega
    exact ⟨d, rfl, rfl⟩
  | succ n ih =>
    have hspan : 1 ≤ left + off := Nat.one_le_iff_ne_zero.mpr fun hzero => by
      rw [pagesByFormula_eq_zero.mpr hzero] at hpages
      cases hpages
    obtain rfl := hoff hspan
    have hturn := pagesByFormula_turn (Nat.mod_lt a hpos) hspan
    have haligned := next_page_aligned (a := a) (len := left) hpos
    have hpage : min (eps - a % eps) left ≤ eps - a % eps := Nat.min_le_left ..
    have hle : min (eps - a % eps) left ≤ left := Nat.min_le_right ..
    rw [splitEvents_succ]
    generalize min (eps - a % eps) left = k at *
    obtain ⟨d₁, hrun₁, hee₁⟩ := refRun_pageEvents (n := k) hw hf hdar (hle.trans hdata) (by omega)
      (fun hk => div_eq_of_div_eq_of_dvd hdvd (chunk_in_page hpos hk hpage)) d
    obtain ⟨d', hrun, hee⟩ := ih (a := a + k) (off := 0) (left := left - k) (data := data.drop k)
      (fun hmore => (haligned.resolve_left (by omega)).symm) (by omega) (by rw [List.length_drop]; omega) (by omega) d₁
    refine ⟨d', ?run, ?stored⟩
    case run =>
      rw [refRun_append, refRun_append, hrun₁]
      exact hrun
    case stored =>
      have hlen : (data.take k).length = k := by rw [List.length_take, Nat.min_eq_left (hle.trans hdata)]
      have hsplit : data.take left = data.take k ++ (data.drop k).take (left - k) := by
        rw [← List.take_add, Nat.add_sub_cancel' hle]
      rw [hee, hee₁, hsplit, memWrite_append, hlen]

/-- An answer that is scripted in full is the script's (43_read.md R133). -/
theorem transportAnswer_of_script {n : Nat} {s : State} (h : n ≤ s.tr.length) : transportAnswer n s = s.tr.take n := by
  simp [transportAnswer, Nat.sub_eq_zero_of_le h]

/-- Where the reference device has the bytes and the range lies in one overflow region, it answers a read of the block with
them (20_memory.md R62, 43_read.md R134). -/
theorem refAnswer_rd {a : Nat} {n : BitVec 17} {bytes : List Byte} {d : RefDevice} (hw : c.wellFormed = true)
    (hf : c.faithful = true)
    (hdar : dar &&& ~~~overflowMask c.overflowBits = base &&& ~~~overflowMask c.overflowBits) (hn : 1 ≤ n.toNat)
    (hlen : bytes.length = n.toNat) (hrange : a + n.toNat ≤ c.capacity.toNat)
    (hregion : c.overflowBits = 0#2 ∨ a / 256 = (a + n.toNat - 1) / 256)
    (hbytes : ∀ (i : Nat) (hi : i < bytes.length), readByte d.ee (a + i) = bytes[i]) :
    refAnswer c base d (.rd (updatedDar c base dar a) c.addressWidth (regAddr c.addressWidth a) n)
      = bytes.map some := by
  apply List.ext_getElem
  · simp [refAnswer, hlen]
  · intro i hi _
    have hi' : i < n.toNat := by simpa [refAnswer] using hi
    have hsame : c.overflowBits = 0#2 ∨ (a + i) / 256 = a / 256 := hregion.imp_right fun hends => by
      have hlow : a / 256 ≤ (a + i) / 256 := Nat.div_le_div_right (by omega)
      have hhigh : (a + i) / 256 ≤ (a + n.toNat - 1) / 256 := Nat.div_le_div_right (by omega)
      omega
    simp only [refAnswer, List.getElem_map, List.getElem_range, answers_updatedDar a hdar, if_true,
      lin_eq_of_faithful hw hf (show a < c.capacity.toNat by omega)]
    rw [refAnswerByte, if_neg (by omega), if_neg (by rintro ⟨hob, -, hother⟩; exact hsame.elim hob hother),
      hbytes i (by omega)]

end

end Sys2Proof.Machine
end

section
/-!
The statements about the run of a WRITE, and of a WRITE and the READ that follows it.
-/

namespace Sys2Proof

open Machine

/-- Settles O38: the accepting step, then the page loop (`run_pageLoop`) from the registers it latches. -/
theorem writeRunsToCompletion : Obligations.WriteRunsToCompletion := by
  intro s addr len rest hready hq hc hp hlen hdata eps pages
  obtain ⟨-, -, hw, -, hsplit⟩ := id hready
  obtain ⟨u, haccept, hu, hinv⟩ := run_accept hready hq hc hp hlen
  have hpg : u.pg.toNat = pages := by
    rw [hu]
    exact latchWrite_pg_of_pos (s := popCommand rest (beginStep s)) hw hp hlen
  have hoff : u.curOff.toNat = addr.toNat % eps := by
    rw [hu]
    exact latchWrite_curOff_toNat addr len _ (one_le_effectivePageSize len hw hsplit)
  have hset : SameSetting s u := by rw [hu]; simp [SameSetting]
  obtain ⟨t, hrun, hdone⟩ := run_pageLoop hpg (hready.of_sameSetting hset) (by rw [hu]; rfl) hinv (by rw [hu]; exact hlen)
    (by rw [hu]; exact hdata)
  refine ⟨t, (run_add haccept).trans hrun, ?_⟩
  obtain ⟨hev, hwd, hdar, hseq, hpgEnd, hcurOff, hsent, haddr, hlenL, heps, hcmd, hset', hmode, htr, hrdat, hresp⟩ := hdone
  rw [hpg, hoff] at hev
  subst hu
  exact ⟨hev, hwd, hcmd, hseq, haddr, hlenL, congrArg BitVec.toNat heps, hsent, hpgEnd, hcurOff, hdar, hset.trans hset',
    hmode, htr, hrdat, hresp⟩

/-- Settles O15: the events of the run are those of the page loop (O38), one group for each page. -/
theorem writeEventCount : Obligations.WriteEventCount := by
  intro s addr len rest hready hq hc hp hlen hdata eps pages
  obtain ⟨t, hrun, hev, -, -, hseq, -⟩ := writeRunsToCompletion s addr len rest hready hq hc hp hlen hdata
  exact ⟨t, _, hrun, hseq, hev, splitEvents_kinds .., splitEvents_length .., splitEvents_count_dly ..⟩

/-- Settles O53: the WRITE's run (O38) stores its bytes at the device (`refRun_splitEvents`); the READ's step asks for the
same range, and the device answers with them (`refAnswer_rd`). -/
theorem writeThenReadReturnsWritten : Obligations.WriteThenReadReturnsWritten := by
  intro s addr len rest d hready ⟨hagrees, _, _⟩ hsound hee hq hclosed hc hp hlen hdata hregion
  obtain ⟨-, -, hw, -, hsplit⟩ := id hready
  obtain ⟨-, hrange⟩ := id hp
  have hf := faithful_of_sound hsound
  obtain ⟨u, hwrite, hevU, -, hcmdU, hseqU, -, -, -, -, -, -, hdarU, hsetU, hmodeU, htrU, hrdatU, -, b₁, hb₁⟩ :=
    writeRunsToCompletion s addr len _ hready hq hc hp hlen hdata
  have hpassU : Passes u addr len := by simpa only [Passes, hmodeU, hsetU.cfg_eq] using hp
  obtain ⟨t, hread, hseq, hcmd, hev, hrdat, -, b₂, hb₂⟩ :=
    run_read (hready.of_sameSetting hsetU) hseqU hcmdU hpassU
  rw [hsetU.cfg_eq, hsetU.base_eq, hdarU, updatedDar_updatedDar, hevU, List.append_assoc s.events] at hev
  obtain ⟨d₁, hrun₁, hee₁⟩ := refRun_splitEvents s.params.tWcMs hw hf hagrees (one_le_effectivePageSize len hw hsplit)
    (effectivePageSize_dvd hsound hw len) (fun _ => rfl) (if_neg (by omega)).symm hdata hrange d
  obtain ⟨d', hrun', hee'⟩ := refRun_selectEvents s.cfg s.base addr.toNat d₁
  have hcontents : d'.ee = memWrite d.ee addr.toNat (s.wd.take len.toNat) := hee'.trans hee₁
  have htake : (s.wd.take len.toNat).length = len.toNat := by rw [List.length_take, Nat.min_eq_left hdata]
  have hanswer := refAnswer_rd (d := d') hw hf hagrees hlen htake hrange hregion fun i hi => by
    rw [hcontents, readByte_memWrite_inside hee hi]
  obtain ⟨hpacedLoop, hclosedLoop⟩ := paced_splitEvents s.params.tWcMs s.cfg s.base s.dar
    (effectivePageSize s.params s.cfg len).toNat
    ((len.toNat + addr.toNat % (effectivePageSize s.params s.cfg len).toNat - 1)
      / (effectivePageSize s.params s.cfg len).toNat + 1)
    addr.toNat (addr.toNat % (effectivePageSize s.params s.cfg len).toNat) len.toNat s.wd
  refine ⟨_, t, _, _, d', (run_add hwrite).trans hread, hseq, hcmd, hev, ?paced, ?run, hanswer, fun hscript => ?delivered,
    fun x hx => ?outside, b₁, b₂, by rw [hb₂, hb₁, List.append_assoc]; rfl⟩
  case paced => simp [hclosed, paced_append, hpacedLoop, hclosedLoop, paced]
  case run => rw [refRun_append, hrun₁, Option.bind_some, hrun']
  case delivered =>
    rw [hanswer] at hscript
    have hsame : s.tr.take len.toNat = s.wd.take len.toNat := List.map_injective_iff.mpr (Option.some_injective _) hscript
    have hfull : len.toNat ≤ u.tr.length := by
      rw [htrU, ← htake, ← hsame, List.length_take]
      exact Nat.min_le_right ..
    rw [hrdat, transportAnswer_of_script hfull, htrU, hrdatU, hsame]
  case outside =>
    rw [hcontents]
    exact readByte_memWrite_outside hee (by rwa [htake])

end Sys2Proof
end

section
/-!
The block looks neither at its own history nor, while it moves data, at which active mode it is in: events put in front of
the history and a relabelling of the modes that keeps UNINIT apart commute with every operation (10_state.md R36,
44_write_protect.md R143, 60_exceptions.md R160).
-/

namespace Sys2Proof.Machine

/-- The state with the events `past` in front of its history and its mode relabelled. -/
def relabel (past : List Event) (m : Mode → Mode) (s : State) : State :=
  { s with events := past ++ s.events, mode := m s.mode }

/-- The instructions that move data: they test the mode for UNINIT only (42_write_splitter.md R111, 43_read.md R131). -/
def MovesData (i : Instr) : Prop :=
  (∃ addr len, i = .write addr len) ∨ (∃ addr len, i = .read addr len) ∨ ∃ addr, i = .read1 addr

section
variable (past : List Event) (m : Mode → Mode) (s : State)

/-! ### The operations -/

theorem emit_relabel (e : Event) : emit e (relabel past m s) = relabel past m (emit e s) := by
  simp [relabel, emit]

theorem updateDA_relabel (a : Nat) : updateDA a (relabel past m s) = relabel past m (updateDA a s) := by
  by_cases hob : s.cfg.overflowBits = 0#2
  · rw [updateDA_of_zero a (s := relabel past m s) hob, updateDA_of_zero a hob]
  · rw [updateDA_of_ne a (s := relabel past m s) hob, updateDA_of_ne a hob, ← emit_relabel]
    rfl

theorem issueRead_relabel (a : Nat) (n : BitVec 17) :
    issueRead a n (relabel past m s) = relabel past m (issueRead a n s) := by
  rw [issueRead, updateDA_relabel, emit_relabel]
  rfl

theorem issueWrite_relabel (a k : Nat) : issueWrite a k (relabel past m s) = relabel past m (issueWrite a k s) := by
  rw [issueWrite, updateDA_relabel, emit_relabel]
  rfl

theorem acceptWrite_relabel (addr : Addr) (len : Len) :
    acceptWrite addr len (relabel past m s) = relabel past m (acceptWrite addr len s) := by
  by_cases hpg : (latchWrite addr len s).pg = 0#17
  · rw [acceptWrite, acceptWrite, if_pos (c := (latchWrite addr len (relabel past m s)).pg = 0#17) hpg, if_pos hpg]
    rfl
  · rw [acceptWrite_of_pg_ne addr len (relabel past m s) hpg, acceptWrite_of_pg_ne addr len s hpg]
    rfl

theorem performRead_relabel (addr : Addr) (len : Len) :
    performRead addr len (relabel past m s) = relabel past m (performRead addr len s) := by
  rw [performRead, issueRead_relabel]
  rfl

theorem performRead1_relabel (addr : Addr) :
    performRead1 addr (relabel past m s) = relabel past m (performRead1 addr s) := by
  rw [performRead1, issueRead_relabel]
  rfl

theorem pageNext_relabel : pageNext (relabel past m s) = relabel past m (pageNext s) := by
  have hissue := issueWrite_relabel past m (beginStep s) (nextAddress s) (nextChunk s)
  exact congrArg (advancePage (nextChunk s)) hissue

theorem delayPage_relabel : delayPage (beginStep (relabel past m s)) = relabel past m (delayPage (beginStep s)) := by
  have hemit := emit_relabel past m (beginStep s) (.dly s.params.tWcMs)
  exact congrArg (fun v => countPage (noteReturned v)) hemit

theorem delayNext_relabel : delayNext (relabel past m s) = relabel past m (delayNext s) := by
  rw [delayNext, delayNext, delayPage_relabel, apply_ite (relabel past m)]
  rfl

/-- INIT and the pin commands look at the mode or set it, but not at the history. -/
theorem startUp_relabel : startUp (relabel past id s) = relabel past id (startUp s) := by
  cases hwp : s.wpPresent with
  | true =>
    have hemit : emit (.pin false) (emit .pinOut (relabel past id s))
        = relabel past id (emit (.pin false) (emit .pinOut s)) := by
      rw [emit_relabel, emit_relabel]
    rw [startUp, startUp, if_pos (c := (relabel past id s).wpPresent = true) hwp, if_pos hwp, hemit]
    rfl
  | false =>
    have hno : ¬s.wpPresent = true := by simp [hwp]
    rw [startUp, startUp, if_neg (c := (relabel past id s).wpPresent = true) hno, if_neg hno]
    rfl

theorem drivePin_relabel (level : Bool) : drivePin level (relabel past id s) = relabel past id (drivePin level s) := by
  by_cases hm : s.mode = .activeWp
  · rw [drivePin, drivePin, if_pos (c := (relabel past id s).mode = .activeWp) hm, if_pos hm, emit_relabel]
    rfl
  · rw [drivePin, drivePin, if_neg (c := (relabel past id s).mode = .activeWp) hm, if_neg hm]
    rfl

end

section
variable {past : List Event} {m : Mode → Mode} {s t : State}

/-! ### One instruction and one action of the sequencer -/

/-- The checks look at the mode for UNINIT only (42_write_splitter.md R111). -/
theorem passes_relabel (hm : ∀ x, m x = .uninit ↔ x = .uninit) {addr : Addr} {len : Len} :
    Passes (relabel past m s) addr len ↔ Passes s addr len := by
  simp [Passes, relabel, hm]

theorem exec_relabel {i : Instr} (hm : ∀ x, m x = .uninit ↔ x = .uninit) (hi : m = id ∨ MovesData i)
    (h : exec i s = .next t) : exec i (relabel past m s) = .next (relabel past m t) := by
  have hw : (relabel past m s).cfg.wellFormed = true := (exec_next h).1
  cases exec_cases h with
  | init =>
    obtain rfl : m = id := hi.resolve_right (by simp [MovesData])
    rw [exec_init_of_wf hw, startUp_relabel]
  | writeFails addr len hp =>
    rw [exec_write_of_not_passes (mt (passes_relabel hm).mp hp) hw]
    rfl
  | writeAccepted addr len hp hsize =>
    rw [exec_write_of_pageSize ((passes_relabel hm).mpr hp) hw hsize, acceptWrite_relabel]
  | readFails addr len hp =>
    rw [exec_read_of_fails (mt (passes_relabel hm).mp hp) hw]
    rfl
  | readPerformed addr len hp => rw [exec_read_of_passes ((passes_relabel hm).mpr hp) hw, performRead_relabel]
  | read1Fails addr hp =>
    rw [exec_read1_of_fails (mt (passes_relabel hm).mp hp) hw]
    rfl
  | read1Performed addr hp => rw [exec_read1_of_passes ((passes_relabel hm).mpr hp) hw, performRead1_relabel]
  | wpa =>
    obtain rfl : m = id := hi.resolve_right (by simp [MovesData])
    rw [exec_wpa_of_wf hw, drivePin_relabel]
  | wpc =>
    obtain rfl : m = id := hi.resolve_right (by simp [MovesData])
    rw [exec_wpc_of_wf hw, drivePin_relabel]

theorem advance_relabel (hm : ∀ x, m x = .uninit ↔ x = .uninit)
    (hi : ∀ w rest i, s.seq = .idle → s.cmdIn = w :: rest → decode w = .ok i → m = id ∨ MovesData i)
    (h : advance (beginStep s) = .next t) : advance (beginStep (relabel past m s)) = .next (relabel past m t) := by
  obtain ⟨hw, he⟩ := advance_next h
  have hw' : (relabel past m s).cfg.wellFormed = true := hw
  rcases StepEffect.cases he with ⟨hq, hc, rfl⟩ | ⟨hq, w, rest, i, hc, hd, hx⟩ | ⟨hq, w, rest, hc, hop, rfl⟩
    | ⟨hq, rfl⟩ | ⟨hq, rfl⟩
  · rw [advance_of_waiting hw' hq hc]
    rfl
  · rw [advance_of_command (s := relabel past m s) hq hc hd]
    exact exec_relabel (s := popCommand rest (beginStep s)) hm (hi w rest i hq hc hd) hx
  · rw [advance_of_reserved hw' hq hc (decode_eq_error.mpr ⟨hop, rfl⟩)]
    rfl
  · rw [advance_of_page hw' hq, pageNext_relabel]
  · rw [advance_of_delay hw' hq, delayNext_relabel]

/-! ### One step -/

theorem stepEvents_relabel : stepEvents (relabel past m s) (relabel past m t) = stepEvents s t := by
  simp [stepEvents, relabel, List.drop_append]

theorem reaches_relabel (p : ResetPoint) : reaches p (relabel past m s) (relabel past m t) = reaches p s t := by
  rw [reaches, emittedAt, stepEvents_relabel]
  rfl

/-- A reset leaves UNINIT, which no relabelling touches. -/
theorem applyReset_relabel (hm : ∀ x, m x = .uninit ↔ x = .uninit) :
    applyReset (relabel past m s) = relabel past m (applyReset s) := by
  simp [applyReset, relabel, (hm .uninit).mpr rfl]

theorem moveOutstanding_relabel (moved : Nat) (answer : List Byte) (e : Option Event) :
    moveOutstanding moved answer e (relabel past m s) = relabel past m (moveOutstanding moved answer e s) := by
  unfold moveOutstanding
  split <;> rfl

theorem abandon_relabel (hm : ∀ x, m x = .uninit ↔ x = .uninit) (p : ResetPoint) :
    abandon p (relabel past m s) (relabel past m t) = relabel past m (abandon p s t) := by
  rw [abandon, abandon, ← applyReset_relabel hm, ← moveOutstanding_relabel, emittedAt, stepEvents_relabel, ← emittedAt]
  simp [relabel]

/-- A step that no reset cuts is the sequencer's next action, once its data is there and the collaborators have returned. -/
theorem step_of_not_cut (hr : s.rst = false) (hn : resetWithin s = none) :
    step s = whenReturned s (whenSupplied s (advance (beginStep s))) := by
  simp [step, runSequencer, hr, hn]

/-- What a step waits for: collaborators, if it has emitted an event. -/
theorem whenReturned_next_iff :
    whenReturned s (.next t) = .next t ↔ t.events.length = s.events.length ∨ s.evReady = true := by
  simp [whenReturned, or_iff_not_imp_left]

/-- A point that a relabelled step reaches is one that the step reaches. -/
theorem resetWithin_relabel_of_none (h : advance (beginStep s) = .next t)
    (h' : advance (beginStep (relabel past m s)) = .next (relabel past m t)) (hn : resetWithin s = none) :
    resetWithin (relabel past m s) = none := by
  refine Option.eq_none_iff_forall_ne_some.mpr fun v hv => ?_
  obtain ⟨p, u, hp, hu, hreach, -⟩ := resetWithin_eq_some.mp hv
  rw [h'] at hu
  cases hu
  rw [reaches_relabel] at hreach
  have hcut : resetWithin s = some (abandon p s t) := resetWithin_eq_some.mpr ⟨p, t, hp, h, hreach, rfl⟩
  exact absurd hcut (by simp [hn])

/-- A step commutes with a relabelling: cut at the same point, or whole once the same data and the same collaborators are
there. -/
theorem step_relabel (hm : ∀ x, m x = .uninit ↔ x = .uninit)
    (hi : ∀ w rest i, s.seq = .idle → s.cmdIn = w :: rest → decode w = .ok i → m = id ∨ MovesData i)
    (h : step s = .next t) : step (relabel past m s) = .next (relabel past m t) := by
  rcases step_next h with ⟨hr, rfl⟩ | ⟨hr, -, p, u, hp, hu, -, hreach, rfl⟩ | ⟨hr, -, hn, ht, -, hdata⟩
  · rw [← applyReset_relabel hm]
    exact if_pos hr
  · rw [← abandon_relabel hm]
    exact step_of_cut hr hp (advance_relabel hm hi hu) (by rwa [reaches_relabel])
  · have ht' := advance_relabel (past := past) hm hi ht
    rw [step_of_not_cut hr hn, ht, whenSupplied_of_data _ hdata, whenReturned_next_iff] at h
    rw [step_of_not_cut (s := relabel past m s) hr (resetWithin_relabel_of_none ht ht' hn), ht',
      whenSupplied_of_data (s := relabel past m s) _ hdata, whenReturned_next_iff]
    simpa [relabel] using h

end

/-! ### The two active modes -/

/-- ACTIVE relabelled as ACTIVE_WP. -/
def asActiveWp (x : Mode) : Mode := if x = .active then .activeWp else x

theorem asActiveWp_uninit (x : Mode) : asActiveWp x = .uninit ↔ x = .uninit := by
  cases x <;> decide

/-- A block in mode ACTIVE relabelled is the same block in mode ACTIVE_WP. -/
theorem relabel_of_active {s : State} (h : s.mode = .active) :
    relabel [] asActiveWp s = { s with mode := .activeWp } := by
  simp [relabel, h, asActiveWp]

/-- An uninitialised block stays as it is. -/
theorem relabel_of_uninit {s : State} (h : s.mode = .uninit) : relabel [] asActiveWp s = s := by
  simp only [relabel, h, asActiveWp, List.nil_append]
  rw [if_neg (by decide), ← h]

end Sys2Proof.Machine
end

section
/-!
The statements that the block looks neither at its history nor, while it moves data, at its active mode.
-/

namespace Sys2Proof

open Machine

/-- Settles O47: events put in front of the history commute with every step. -/
theorem pastEventsDoNotMatter : Obligations.PastEventsDoNotMatter := by
  intro s t past h
  exact step_relabel (past := past) (m := id) (fun _ => Iff.rfl) (fun _ _ _ _ _ _ => .inl rfl) h

/-- Settles O48: the relabelling of ACTIVE as ACTIVE_WP commutes with the instructions that move data and with the steps
they run in; such a step keeps the mode (O43), unless a reset cuts it. -/
theorem activeModesRunAlike : Obligations.ActiveModesRunAlike := by
  refine ⟨fun s t i hi h => ?exec, fun s t hr hcmd h => ?step⟩
  case exec =>
    have hmode : t.mode = .active := exec_mode (by rcases hi with ⟨_, _, rfl⟩ | ⟨_, _, rfl⟩ | ⟨_, rfl⟩ <;> simp) h
    have hrelabel := exec_relabel (past := []) asActiveWp_uninit (.inr hi) h
    rwa [relabel_of_active hmode] at hrelabel
  case step =>
    have hmoves : ∀ w rest i, s.seq = .idle → s.cmdIn = w :: rest → decode w = .ok i → MovesData i := by
      intro w rest i hq hc hd
      obtain ⟨w', rest', hc', hd'⟩ := hcmd hq
      rw [hc] at hc'
      cases hc'
      simpa [hd, MovesData] using hd'
    have hrelabel := step_relabel (past := []) (s := { s with mode := .active }) asActiveWp_uninit
      (fun w rest i hq hc hd => .inr (hmoves w rest i hq hc hd)) h
    rw [relabel_of_active rfl] at hrelabel
    rcases modeChangesOnlyByInit _ t h with ⟨hreset, hmode⟩ | hmode | ⟨-, hq, ⟨w, rest, hc, hd⟩, -⟩
    · rw [relabel_of_uninit hmode] at hrelabel
      exact .inr ⟨hreset.resolve_left (by simp [hr]), hmode, hrelabel⟩
    · rw [relabel_of_active hmode] at hrelabel
      exact .inl ⟨hmode, hrelabel⟩
    · exact absurd (hmoves w rest .init hq hc hd) (by simp [MovesData])

end Sys2Proof
end
